-- ==== Sys2Proof/Word.lean ====
section
/-! DEFINITION. The two widths of the block (spec/00_scope.md R1): 8-bit data, 16-bit addresses.
`BitVec` addition and subtraction are the `u8` and `u16` arithmetic of R7. -/

namespace Sys2Proof

/-- An 8-bit value: A, X, Y, S, P and every bus byte (R1). -/
abbrev Byte := BitVec 8

/-- A 16-bit value: PC and every bus address (R1). -/
abbrev Word := BitVec 16

end Sys2Proof
end

