-- ==== Sys2Proof/Config.lean ====
section
/-! DEFINITION. What is fixed for one machine and never changes while it runs: the shape of the opcode table
(spec/30_encoding.md R92 to R95) and the four parameters of spec/00_scope.md (R2 to R5). The spec's VALUES of the
parameters stand in Sys2Proof/Decode.lean (`Config.spec`). The spec leaves no value free
(spec/93_implementation_defined.md, end of part 1), so there is no opaque constant here. -/

namespace Sys2Proof

/-- The 13 addressing modes (R60, R95). -/
inductive Mode where
  | imp | acc | imm | zp | zpx | zpy | rel | abs | absx | absy | ind | indx | indy
  deriving DecidableEq, Repr

/-- The direction in which a behaviour asks the resolver (R60, R243). -/
inductive Direction where
  | read | write
  deriving DecidableEq, Repr

/-- The instruction kind of a table entry, which the spec identifies with its mnemonic (R92): the 30 kinds with a
behaviour, then the 26 the table recognizes without one (R99). DESIGN CHOICE, log entry 14: the type is closed, so a
host-supplied table (R94, D19) cannot hold an entry with any other mnemonic, which R96 does not forbid. -/
inductive Kind where
  | lda | ldx | ldy | sta | stx | sty | adc | sbc | and | ora
  | eor | inc | dec | inx | iny | dex | dey | cmp | cpx | cpy
  | bit | jmp | bcc | bcs | beq | bne | bmi | bpl | bvc | bvs
  | asl | lsr | rol | ror | brk | rti | rts | jsr | pha | pla | php | plp | clc
  | sec | cli | sei | clv | cld | sed | tax | tay | txa | tya | tsx | txs | nop
  deriving DecidableEq, Repr

/-- The mnemonic string of an entry (R92), which is what `UnsupportedInstruction` carries (R242). -/
def Kind.mnemonic : Kind → String
  | .lda => "LDA" | .ldx => "LDX" | .ldy => "LDY" | .sta => "STA" | .stx => "STX"
  | .sty => "STY" | .adc => "ADC" | .sbc => "SBC" | .and => "AND" | .ora => "ORA"
  | .eor => "EOR" | .inc => "INC" | .dec => "DEC" | .inx => "INX" | .iny => "INY"
  | .dex => "DEX" | .dey => "DEY" | .cmp => "CMP" | .cpx => "CPX" | .cpy => "CPY"
  | .bit => "BIT" | .jmp => "JMP" | .bcc => "BCC" | .bcs => "BCS" | .beq => "BEQ"
  | .bne => "BNE" | .bmi => "BMI" | .bpl => "BPL" | .bvc => "BVC" | .bvs => "BVS"
  | .asl => "ASL" | .lsr => "LSR" | .rol => "ROL" | .ror => "ROR" | .brk => "BRK"
  | .rti => "RTI" | .rts => "RTS" | .jsr => "JSR" | .pha => "PHA" | .pla => "PLA"
  | .php => "PHP" | .plp => "PLP" | .clc => "CLC" | .sec => "SEC" | .cli => "CLI"
  | .sei => "SEI" | .clv => "CLV" | .cld => "CLD" | .sed => "SED" | .tax => "TAX"
  | .tay => "TAY" | .txa => "TXA" | .tya => "TYA" | .tsx => "TSX" | .txs => "TXS"
  | .nop => "NOP"

/-- The kinds with a registered behaviour (R99). -/
def Kind.implemented : Kind → Bool
  | .lda | .ldx | .ldy | .sta | .stx | .sty | .adc | .sbc | .and | .ora
  | .eor | .inc | .dec | .inx | .iny | .dex | .dey | .cmp | .cpx | .cpy
  | .bit | .jmp | .bcc | .bcs | .beq | .bne | .bmi | .bpl | .bvc | .bvs => true
  | .asl | .lsr | .rol | .ror | .brk | .rti | .rts | .jsr | .pha | .pla | .php | .plp | .clc
  | .sec | .cli | .sei | .clv | .cld | .sed | .tax | .tay | .txa | .tya | .tsx | .txs | .nop => false

/-- One entry of the opcode table (R92). -/
structure Entry where
  kind   : Kind
  mode   : Mode
  length : Nat
  cycles : Nat
  deriving DecidableEq, Repr

/-- The opcode table: position `b` holds the entry of opcode byte `b`, `none` where it is undefined (R5, R93).
It is configuration, not state (R39). -/
abbrev OpcodeTable := List (Option Entry)

/-- Parameter `INDIRECT_SEMANTICS` (R2). -/
inductive IndirectSemantics where
  | official | source
  deriving DecidableEq, Repr

/-- Parameter `JMP_INDIRECT` (R3, R190). -/
inductive JmpIndirect where
  | nmosPageWrap | linear | literal
  deriving DecidableEq, Repr

/-- The parameters of a machine (R2 to R5). -/
structure Config where
  table       : OpcodeTable
  indirect    : IndirectSemantics
  jmpIndirect : JmpIndirect
  resetVector : Word
  deriving DecidableEq, Repr

end Sys2Proof
end

