-- ==== Sys2Proof/Syntax.lean ====
section
/-! DEFINITION. Instructions as the spec writes them: a mnemonic with an operand in one of the 13 addressing modes
(spec/20_memory.md R60, spec/30_encoding.md R102), and the undefined opcode bytes (R98). One constructor per mnemonic
of spec/opcode_table.json; the operand's mode tells the rows of one mnemonic apart, because the spec itself gives one
rule per mnemonic and passes the mode to it (spec/40_engine.md R125, R130, R133). Which mnemonic stands with which
mode is checked in Sys2Proof/WellFormed.lean. -/

namespace Sys2Proof

/-- An operand: the addressing mode and its operand bytes (R60, R90, R91). -/
inductive Operand where
  | imp
  | acc
  | imm  (v : Byte)
  | zp   (z : Byte)
  | zpx  (z : Byte)
  | zpy  (z : Byte)
  | rel  (off : Byte)
  | abs  (w : Word)
  | absx (w : Word)
  | absy (w : Word)
  | ind  (w : Word)
  | indx (z : Byte)
  | indy (z : Byte)
  deriving DecidableEq, Repr

/-- The addressing mode of an operand. -/
def Operand.mode : Operand → Mode
  | .imp => .imp
  | .acc => .acc
  | .imm _ => .imm
  | .zp _ => .zp
  | .zpx _ => .zpx
  | .zpy _ => .zpy
  | .rel _ => .rel
  | .abs _ => .abs
  | .absx _ => .absx
  | .absy _ => .absy
  | .ind _ => .ind
  | .indx _ => .indx
  | .indy _ => .indy

/-- The instructions of spec/opcode_table.json. -/
inductive Instr where
  /-- LDA, load accumulator (R140). -/
  | lda (op : Operand)
  /-- LDX, load index X (R141). -/
  | ldx (op : Operand)
  /-- LDY, load index Y (R142). -/
  | ldy (op : Operand)
  /-- STA, store accumulator (R143). -/
  | sta (op : Operand)
  /-- STX, store index X (R144). -/
  | stx (op : Operand)
  /-- STY, store index Y (R145). -/
  | sty (op : Operand)
  /-- ADC, add with carry (R150). -/
  | adc (op : Operand)
  /-- SBC, subtract with carry (borrow) (R151). -/
  | sbc (op : Operand)
  /-- AND, bitwise AND with accumulator (R160). -/
  | and (op : Operand)
  /-- ORA, bitwise OR with accumulator (R161). -/
  | ora (op : Operand)
  /-- EOR, bitwise exclusive OR with accumulator (R162). -/
  | eor (op : Operand)
  /-- INC, increment memory (R170). -/
  | inc (op : Operand)
  /-- DEC, decrement memory (R171). -/
  | dec (op : Operand)
  /-- INX, increment X (R172). -/
  | inx (op : Operand)
  /-- INY, increment Y (R173). -/
  | iny (op : Operand)
  /-- DEX, decrement X (R174). -/
  | dex (op : Operand)
  /-- DEY, decrement Y (R175). -/
  | dey (op : Operand)
  /-- CMP, compare with accumulator (R180). -/
  | cmp (op : Operand)
  /-- CPX, compare with X (R181). -/
  | cpx (op : Operand)
  /-- CPY, compare with Y (R182). -/
  | cpy (op : Operand)
  /-- BIT, bit test (R183). -/
  | bit (op : Operand)
  /-- JMP, unconditional jump (R190). -/
  | jmp (op : Operand)
  /-- BCC, branch if carry clear (R192). -/
  | bcc (op : Operand)
  /-- BCS, branch if carry set (R193). -/
  | bcs (op : Operand)
  /-- BEQ, branch if equal (zero set) (R194). -/
  | beq (op : Operand)
  /-- BNE, branch if not equal (zero clear) (R195). -/
  | bne (op : Operand)
  /-- BMI, branch if minus (negative set) (R196). -/
  | bmi (op : Operand)
  /-- BPL, branch if plus (negative clear) (R197). -/
  | bpl (op : Operand)
  /-- BVC, branch if overflow clear (R198). -/
  | bvc (op : Operand)
  /-- BVS, branch if overflow set (R199). -/
  | bvs (op : Operand)
  /-- ASL, recognized, no behaviour (R211). -/
  | asl (op : Operand)
  /-- LSR, recognized, no behaviour (R212). -/
  | lsr (op : Operand)
  /-- ROL, recognized, no behaviour (R213). -/
  | rol (op : Operand)
  /-- ROR, recognized, no behaviour (R214). -/
  | ror (op : Operand)
  /-- BRK, recognized, no behaviour (R215). -/
  | brk (op : Operand)
  /-- RTI, recognized, no behaviour (R216). -/
  | rti (op : Operand)
  /-- RTS, recognized, no behaviour (R217). -/
  | rts (op : Operand)
  /-- JSR, recognized, no behaviour (R218). -/
  | jsr (op : Operand)
  /-- PHA, recognized, no behaviour (R219). -/
  | pha (op : Operand)
  /-- PLA, recognized, no behaviour (R220). -/
  | pla (op : Operand)
  /-- PHP, recognized, no behaviour (R221). -/
  | php (op : Operand)
  /-- PLP, recognized, no behaviour (R222). -/
  | plp (op : Operand)
  /-- CLC, recognized, no behaviour (R223). -/
  | clc (op : Operand)
  /-- SEC, recognized, no behaviour (R224). -/
  | sec (op : Operand)
  /-- CLI, recognized, no behaviour (R225). -/
  | cli (op : Operand)
  /-- SEI, recognized, no behaviour (R226). -/
  | sei (op : Operand)
  /-- CLV, recognized, no behaviour (R227). -/
  | clv (op : Operand)
  /-- CLD, recognized, no behaviour (R228). -/
  | cld (op : Operand)
  /-- SED, recognized, no behaviour (R229). -/
  | sed (op : Operand)
  /-- TAX, recognized, no behaviour (R230). -/
  | tax (op : Operand)
  /-- TAY, recognized, no behaviour (R231). -/
  | tay (op : Operand)
  /-- TXA, recognized, no behaviour (R232). -/
  | txa (op : Operand)
  /-- TYA, recognized, no behaviour (R233). -/
  | tya (op : Operand)
  /-- TSX, recognized, no behaviour (R234). -/
  | tsx (op : Operand)
  /-- TXS, recognized, no behaviour (R235). -/
  | txs (op : Operand)
  /-- NOP, recognized, no behaviour (R236). -/
  | nop (op : Operand)
  /-- An opcode byte with no entry in the table (R98). -/
  | undefined (byte : Byte)
  deriving DecidableEq, Repr

/-- The instruction that a kind makes of an operand. -/
def Kind.instr : Kind → Operand → Instr
  | .lda, op => .lda op
  | .ldx, op => .ldx op
  | .ldy, op => .ldy op
  | .sta, op => .sta op
  | .stx, op => .stx op
  | .sty, op => .sty op
  | .adc, op => .adc op
  | .sbc, op => .sbc op
  | .and, op => .and op
  | .ora, op => .ora op
  | .eor, op => .eor op
  | .inc, op => .inc op
  | .dec, op => .dec op
  | .inx, op => .inx op
  | .iny, op => .iny op
  | .dex, op => .dex op
  | .dey, op => .dey op
  | .cmp, op => .cmp op
  | .cpx, op => .cpx op
  | .cpy, op => .cpy op
  | .bit, op => .bit op
  | .jmp, op => .jmp op
  | .bcc, op => .bcc op
  | .bcs, op => .bcs op
  | .beq, op => .beq op
  | .bne, op => .bne op
  | .bmi, op => .bmi op
  | .bpl, op => .bpl op
  | .bvc, op => .bvc op
  | .bvs, op => .bvs op
  | .asl, op => .asl op
  | .lsr, op => .lsr op
  | .rol, op => .rol op
  | .ror, op => .ror op
  | .brk, op => .brk op
  | .rti, op => .rti op
  | .rts, op => .rts op
  | .jsr, op => .jsr op
  | .pha, op => .pha op
  | .pla, op => .pla op
  | .php, op => .php op
  | .plp, op => .plp op
  | .clc, op => .clc op
  | .sec, op => .sec op
  | .cli, op => .cli op
  | .sei, op => .sei op
  | .clv, op => .clv op
  | .cld, op => .cld op
  | .sed, op => .sed op
  | .tax, op => .tax op
  | .tay, op => .tay op
  | .txa, op => .txa op
  | .tya, op => .tya op
  | .tsx, op => .tsx op
  | .txs, op => .txs op
  | .nop, op => .nop op

/-- An instruction taken apart: the undefined byte, or the kind and its operand. -/
def Instr.view : Instr → Byte ⊕ (Kind × Operand)
  | .lda op => .inr (.lda, op)
  | .ldx op => .inr (.ldx, op)
  | .ldy op => .inr (.ldy, op)
  | .sta op => .inr (.sta, op)
  | .stx op => .inr (.stx, op)
  | .sty op => .inr (.sty, op)
  | .adc op => .inr (.adc, op)
  | .sbc op => .inr (.sbc, op)
  | .and op => .inr (.and, op)
  | .ora op => .inr (.ora, op)
  | .eor op => .inr (.eor, op)
  | .inc op => .inr (.inc, op)
  | .dec op => .inr (.dec, op)
  | .inx op => .inr (.inx, op)
  | .iny op => .inr (.iny, op)
  | .dex op => .inr (.dex, op)
  | .dey op => .inr (.dey, op)
  | .cmp op => .inr (.cmp, op)
  | .cpx op => .inr (.cpx, op)
  | .cpy op => .inr (.cpy, op)
  | .bit op => .inr (.bit, op)
  | .jmp op => .inr (.jmp, op)
  | .bcc op => .inr (.bcc, op)
  | .bcs op => .inr (.bcs, op)
  | .beq op => .inr (.beq, op)
  | .bne op => .inr (.bne, op)
  | .bmi op => .inr (.bmi, op)
  | .bpl op => .inr (.bpl, op)
  | .bvc op => .inr (.bvc, op)
  | .bvs op => .inr (.bvs, op)
  | .asl op => .inr (.asl, op)
  | .lsr op => .inr (.lsr, op)
  | .rol op => .inr (.rol, op)
  | .ror op => .inr (.ror, op)
  | .brk op => .inr (.brk, op)
  | .rti op => .inr (.rti, op)
  | .rts op => .inr (.rts, op)
  | .jsr op => .inr (.jsr, op)
  | .pha op => .inr (.pha, op)
  | .pla op => .inr (.pla, op)
  | .php op => .inr (.php, op)
  | .plp op => .inr (.plp, op)
  | .clc op => .inr (.clc, op)
  | .sec op => .inr (.sec, op)
  | .cli op => .inr (.cli, op)
  | .sei op => .inr (.sei, op)
  | .clv op => .inr (.clv, op)
  | .cld op => .inr (.cld, op)
  | .sed op => .inr (.sed, op)
  | .tax op => .inr (.tax, op)
  | .tay op => .inr (.tay, op)
  | .txa op => .inr (.txa, op)
  | .tya op => .inr (.tya, op)
  | .tsx op => .inr (.tsx, op)
  | .txs op => .inr (.txs, op)
  | .nop op => .inr (.nop, op)
  | .undefined b => .inl b

end Sys2Proof
end

