-- ==== Sys2Proof/WellFormed.lean ====
section
/-! DEFINITION. Which instructions exist. The spec's opcode table pairs each mnemonic with some of the 13 modes (the
tables at the head of spec/41 to spec/46, rules R211 to R236 for the unimplemented ones), and 105 bytes have no entry
(spec/30_encoding.md R98). A term outside these pairings is a term of the type that no word of the spec's table
encodes; the resolver's failure rules (R243) still say what a behaviour does with it. -/

namespace Sys2Proof

/-- The modes the spec's table pairs a mnemonic with, from the family tables (R140 to R199, R211 to R236). -/
def Kind.modes : Kind → List Mode
  | .lda | .adc | .sbc | .and | .ora | .eor | .cmp =>
    [.imm, .zp, .zpx, .abs, .absx, .absy, .indx, .indy]
  | .ldx =>
    [.imm, .zp, .zpy, .abs, .absy]
  | .ldy =>
    [.imm, .zp, .zpx, .abs, .absx]
  | .sta =>
    [.zp, .zpx, .abs, .absx, .absy, .indx, .indy]
  | .stx =>
    [.zp, .zpy, .abs]
  | .sty =>
    [.zp, .zpx, .abs]
  | .inc | .dec =>
    [.zp, .zpx, .abs, .absx]
  | .inx | .iny | .dex | .dey | .brk | .rti | .rts | .pha | .pla | .php | .plp | .clc
  | .sec | .cli | .sei | .clv | .cld | .sed | .tax | .tay | .txa | .tya | .tsx | .txs
  | .nop =>
    [.imp]
  | .cpx | .cpy =>
    [.imm, .zp, .abs]
  | .bit =>
    [.zp, .abs]
  | .jmp =>
    [.abs, .ind]
  | .bcc | .bcs | .beq | .bne | .bmi | .bpl | .bvc | .bvs =>
    [.rel]
  | .asl | .lsr | .rol | .ror =>
    [.acc, .zp, .zpx, .abs, .absx]
  | .jsr =>
    [.abs]

/-- The 105 opcode bytes without an entry, in the order of R98. -/
def undefinedOpcodes : List Byte :=
  [0x02, 0x03, 0x04, 0x07, 0x0B, 0x0C, 0x0F, 0x12, 0x13, 0x14, 0x17] ++
  [0x1A, 0x1B, 0x1C, 0x1F, 0x22, 0x23, 0x27, 0x2B, 0x2F, 0x32, 0x33] ++
  [0x34, 0x37, 0x3A, 0x3B, 0x3C, 0x3F, 0x42, 0x43, 0x44, 0x47, 0x4B] ++
  [0x4F, 0x52, 0x53, 0x54, 0x57, 0x5A, 0x5B, 0x5C, 0x5F, 0x62, 0x63] ++
  [0x64, 0x67, 0x6B, 0x6F, 0x72, 0x73, 0x74, 0x77, 0x7A, 0x7B, 0x7C] ++
  [0x7F, 0x80, 0x82, 0x83, 0x87, 0x89, 0x8B, 0x8F, 0x92, 0x93, 0x97] ++
  [0x9B, 0x9C, 0x9E, 0x9F, 0xA3, 0xA7, 0xAB, 0xAF, 0xB2, 0xB3, 0xB7] ++
  [0xBB, 0xBF, 0xC2, 0xC3, 0xC7, 0xCB, 0xCF, 0xD2, 0xD3, 0xD4, 0xD7] ++
  [0xDA, 0xDB, 0xDC, 0xDF, 0xE2, 0xE3, 0xE7, 0xEB, 0xEF, 0xF2, 0xF3] ++
  [0xF4, 0xF7, 0xFA, 0xFB, 0xFC, 0xFF]

/-- An instruction is well-formed when some word of the spec's table encodes it. -/
def Instr.wf (i : Instr) : Bool :=
  match i.view with
  | .inl b => undefinedOpcodes.contains b
  | .inr (k, op) => k.modes.contains op.mode

end Sys2Proof
end

