-- ==== Sys2Proof/Decode.lean ====
section
/-! DEFINITION. From bytes to instructions and back: the byte-order and extension helpers, the spec's values of the
parameters (`Config.spec`, with the opcode map of spec/30_encoding.md R97), the decoder (a table lookup and nothing
else, R100), and the encoder, written from the per-mnemonic encodings of spec/41 to spec/47, not from the map. -/

namespace Sys2Proof

/-! ## Byte order and extension (R7, R51) -/

/-- `hi:lo`, the 16-bit value of two bytes, the low byte first (R7, R51). -/
def wordOf (lo hi : Byte) : Word := hi ++ lo

/-- The low byte of a word, bits 7 to 0 (R6). -/
def loByte (w : Word) : Byte := w.setWidth 8

/-- The high byte of a word, bits 15 to 8 (R6). -/
def hiByte (w : Word) : Byte := (w >>> 8).setWidth 8

/-- `zext16` (R7). -/
def zext16 (b : Byte) : Word := b.setWidth 16

/-- `sext_8` as a 16-bit addend (R7, R91). -/
def sext16 (b : Byte) : Word := b.signExtend 16

/-! ## The opcode table -/

/-- The length in bytes of an instruction in a mode (R96). -/
def Mode.length : Mode → Nat
  | .imp | .acc => 1
  | .imm | .zp | .zpx | .zpy | .rel | .indx | .indy => 2
  | .abs | .absx | .absy | .ind => 3

/-- The length of an instruction with this operand: opcode byte and operand bytes (R90, R96). -/
def Operand.length (op : Operand) : Nat := op.mode.length

/-- `lookup(opcode)`: total over the 256 byte values (R93). -/
def OpcodeTable.lookup (t : OpcodeTable) (b : Byte) : Option Entry := (t[b.toNat]?).join

/-- The check of R96 on one entry. -/
def Entry.wf (e : Entry) : Bool := e.length == e.mode.length && decide (1 ≤ e.cycles)

/-- The check of R96 on a table of 256 positions (R93). -/
def OpcodeTable.wf (t : OpcodeTable) : Bool :=
  t.length == 256 && t.all fun c => match c with
    | none => true
    | some e => e.wf

/-- A cell of the map: mnemonic, mode and base cycle count, the length that of the mode. -/
def row (k : Kind) (m : Mode) (cycles : Nat) : Option Entry := some ⟨k, m, m.length, cycles⟩

/-- Row 0x of the opcode map (R97). -/
def mapRow0 : OpcodeTable :=
  [row .brk .imp 7, row .ora .indx 6, none, none,
   none, row .ora .zp 3, row .asl .zp 5, none,
   row .php .imp 3, row .ora .imm 2, row .asl .acc 2, none,
   none, row .ora .abs 4, row .asl .abs 6, none]

/-- Row 1x of the opcode map (R97). -/
def mapRow1 : OpcodeTable :=
  [row .bpl .rel 2, row .ora .indy 5, none, none,
   none, row .ora .zpx 4, row .asl .zpx 6, none,
   row .clc .imp 2, row .ora .absy 4, none, none,
   none, row .ora .absx 4, row .asl .absx 7, none]

/-- Row 2x of the opcode map (R97). -/
def mapRow2 : OpcodeTable :=
  [row .jsr .abs 6, row .and .indx 6, none, none,
   row .bit .zp 3, row .and .zp 3, row .rol .zp 5, none,
   row .plp .imp 4, row .and .imm 2, row .rol .acc 2, none,
   row .bit .abs 4, row .and .abs 4, row .rol .abs 6, none]

/-- Row 3x of the opcode map (R97). -/
def mapRow3 : OpcodeTable :=
  [row .bmi .rel 2, row .and .indy 5, none, none,
   none, row .and .zpx 4, row .rol .zpx 6, none,
   row .sec .imp 2, row .and .absy 4, none, none,
   none, row .and .absx 4, row .rol .absx 7, none]

/-- Row 4x of the opcode map (R97). -/
def mapRow4 : OpcodeTable :=
  [row .rti .imp 6, row .eor .indx 6, none, none,
   none, row .eor .zp 3, row .lsr .zp 5, none,
   row .pha .imp 3, row .eor .imm 2, row .lsr .acc 2, none,
   row .jmp .abs 3, row .eor .abs 4, row .lsr .abs 6, none]

/-- Row 5x of the opcode map (R97). -/
def mapRow5 : OpcodeTable :=
  [row .bvc .rel 2, row .eor .indy 5, none, none,
   none, row .eor .zpx 4, row .lsr .zpx 6, none,
   row .cli .imp 2, row .eor .absy 4, none, none,
   none, row .eor .absx 4, row .lsr .absx 7, none]

/-- Row 6x of the opcode map (R97). -/
def mapRow6 : OpcodeTable :=
  [row .rts .imp 6, row .adc .indx 6, none, none,
   none, row .adc .zp 3, row .ror .zp 5, none,
   row .pla .imp 4, row .adc .imm 2, row .ror .acc 2, none,
   row .jmp .ind 5, row .adc .abs 4, row .ror .abs 6, none]

/-- Row 7x of the opcode map (R97). -/
def mapRow7 : OpcodeTable :=
  [row .bvs .rel 2, row .adc .indy 5, none, none,
   none, row .adc .zpx 4, row .ror .zpx 6, none,
   row .sei .imp 2, row .adc .absy 4, none, none,
   none, row .adc .absx 4, row .ror .absx 7, none]

/-- Row 8x of the opcode map (R97). -/
def mapRow8 : OpcodeTable :=
  [none, row .sta .indx 6, none, none,
   row .sty .zp 3, row .sta .zp 3, row .stx .zp 3, none,
   row .dey .imp 2, none, row .txa .imp 2, none,
   row .sty .abs 4, row .sta .abs 4, row .stx .abs 4, none]

/-- Row 9x of the opcode map (R97). -/
def mapRow9 : OpcodeTable :=
  [row .bcc .rel 2, row .sta .indy 6, none, none,
   row .sty .zpx 4, row .sta .zpx 4, row .stx .zpy 4, none,
   row .tya .imp 2, row .sta .absy 5, row .txs .imp 2, none,
   none, row .sta .absx 5, none, none]

/-- Row Ax of the opcode map (R97). -/
def mapRowA : OpcodeTable :=
  [row .ldy .imm 2, row .lda .indx 6, row .ldx .imm 2, none,
   row .ldy .zp 3, row .lda .zp 3, row .ldx .zp 3, none,
   row .tay .imp 2, row .lda .imm 2, row .tax .imp 2, none,
   row .ldy .abs 4, row .lda .abs 4, row .ldx .abs 4, none]

/-- Row Bx of the opcode map (R97). -/
def mapRowB : OpcodeTable :=
  [row .bcs .rel 2, row .lda .indy 5, none, none,
   row .ldy .zpx 4, row .lda .zpx 4, row .ldx .zpy 4, none,
   row .clv .imp 2, row .lda .absy 4, row .tsx .imp 2, none,
   row .ldy .absx 4, row .lda .absx 4, row .ldx .absy 4, none]

/-- Row Cx of the opcode map (R97). -/
def mapRowC : OpcodeTable :=
  [row .cpy .imm 2, row .cmp .indx 6, none, none,
   row .cpy .zp 3, row .cmp .zp 3, row .dec .zp 5, none,
   row .iny .imp 2, row .cmp .imm 2, row .dex .imp 2, none,
   row .cpy .abs 4, row .cmp .abs 4, row .dec .abs 6, none]

/-- Row Dx of the opcode map (R97). -/
def mapRowD : OpcodeTable :=
  [row .bne .rel 2, row .cmp .indy 5, none, none,
   none, row .cmp .zpx 4, row .dec .zpx 6, none,
   row .cld .imp 2, row .cmp .absy 4, none, none,
   none, row .cmp .absx 4, row .dec .absx 7, none]

/-- Row Ex of the opcode map (R97). -/
def mapRowE : OpcodeTable :=
  [row .cpx .imm 2, row .sbc .indx 6, none, none,
   row .cpx .zp 3, row .sbc .zp 3, row .inc .zp 5, none,
   row .inx .imp 2, row .sbc .imm 2, row .nop .imp 2, none,
   row .cpx .abs 4, row .sbc .abs 4, row .inc .abs 6, none]

/-- Row Fx of the opcode map (R97). -/
def mapRowF : OpcodeTable :=
  [row .beq .rel 2, row .sbc .indy 5, none, none,
   none, row .sbc .zpx 4, row .inc .zpx 6, none,
   row .sed .imp 2, row .sbc .absy 4, none, none,
   none, row .sbc .absx 4, row .inc .absx 7, none]

/-- The spec's opcode table: the 16 rows of R97, one after the other. -/
def specTable : OpcodeTable :=
  mapRow0 ++ mapRow1 ++ mapRow2 ++ mapRow3 ++ mapRow4 ++ mapRow5 ++ mapRow6 ++ mapRow7 ++
  mapRow8 ++ mapRow9 ++ mapRowA ++ mapRowB ++ mapRowC ++ mapRowD ++ mapRowE ++ mapRowF

/-- The spec's values of the four parameters (R2 to R5; D2, D3, D4, D7). -/
def Config.spec : Config where
  table       := specTable
  indirect    := .official
  jmpIndirect := .nmosPageWrap
  resetVector := 0xFFFC

/-- What a configuration must satisfy before any step: the table passes R96 (R94), and the vector's second byte does
not lie past 0xFFFF (R4). -/
def Config.wf (c : Config) : Bool := c.table.wf && c.resetVector != 0xFFFF

/-! ## Decoding -/

/-- The operand that a mode makes of the two bytes after the opcode (R90, R91); a mode with fewer operand bytes
ignores the rest. -/
def Operand.ofBytes (m : Mode) (op1 op2 : Byte) : Operand :=
  match m with
  | .imp => .imp
  | .acc => .acc
  | .imm => .imm op1
  | .zp => .zp op1
  | .zpx => .zpx op1
  | .zpy => .zpy op1
  | .rel => .rel op1
  | .abs => .abs (wordOf op1 op2)
  | .absx => .absx (wordOf op1 op2)
  | .absy => .absy (wordOf op1 op2)
  | .ind => .ind (wordOf op1 op2)
  | .indx => .indx op1
  | .indy => .indy op1

/-- The instruction at three consecutive bytes: the table entry of the first decides everything (R90, R100). -/
def decodeBytes (t : OpcodeTable) (b0 b1 b2 : Byte) : Instr :=
  match t.lookup b0 with
  | none => .undefined b0
  | some e => e.kind.instr (Operand.ofBytes e.mode b1 b2)

/-- The length in bytes of the instruction that an opcode byte begins (R90); an undefined byte stands alone. -/
def OpcodeTable.lengthOf (t : OpcodeTable) (b : Byte) : Nat :=
  match t.lookup b with
  | none => 1
  | some e => e.mode.length

/-- Why a list of bytes holds no instruction. -/
inductive DecodeError where
  /-- The list is empty. -/
  | noOpcode
  /-- The list ends before the operand bytes of this opcode. -/
  | missingOperand (opcode : Byte)
  deriving DecidableEq, Repr

/-- Decoding a list of bytes by a table: the instruction and the bytes after it, or the reason there is none. -/
def decodeWith (t : OpcodeTable) (bytes : List Byte) : Except DecodeError (Instr × List Byte) :=
  match bytes with
  | [] => .error .noOpcode
  | b :: rest =>
    if t.lengthOf b ≤ bytes.length then
      .ok (decodeBytes t b (rest.getD 0 0) (rest.getD 1 0), bytes.drop (t.lengthOf b))
    else .error (.missingOperand b)

/-- Decoding by the spec's table. -/
def decode (bytes : List Byte) : Except DecodeError (Instr × List Byte) := decodeWith specTable bytes

/-- The byte at position `k` of a number whose byte 0 is the least significant. -/
def byteOfNat (w k : Nat) : Byte := BitVec.ofNat 8 (w / 256 ^ k)

/-- The three bytes of an instruction whose low `nbits` bits are `w` and whose other bits are 0, the first byte
lowest. -/
def tableBytes (nbits w : Nat) : List Byte :=
  let v := w % 2 ^ nbits
  [byteOfNat v 0, byteOfNat v 1, byteOfNat v 2]

/-- What the decoder reads from a row of spec/opcode_table.json. -/
def decodeTableWord (nbits w : Nat) : Option Instr :=
  match decode (tableBytes nbits w) with
  | .ok (i, _) => some i
  | .error _ => none

/-! ## Encoding -/

/-- The encodings of a mnemonic, mode by mode, from its rule's Encoding line (R140 to R199, R211 to R236). -/
def Kind.encodings : Kind → List (Mode × Byte)
  | .lda =>
    [(.imm, 0xA9), (.zp, 0xA5), (.zpx, 0xB5), (.abs, 0xAD), (.absx, 0xBD),
     (.absy, 0xB9), (.indx, 0xA1), (.indy, 0xB1)]
  | .ldx =>
    [(.imm, 0xA2), (.zp, 0xA6), (.zpy, 0xB6), (.abs, 0xAE), (.absy, 0xBE)]
  | .ldy =>
    [(.imm, 0xA0), (.zp, 0xA4), (.zpx, 0xB4), (.abs, 0xAC), (.absx, 0xBC)]
  | .sta =>
    [(.zp, 0x85), (.zpx, 0x95), (.abs, 0x8D), (.absx, 0x9D), (.absy, 0x99),
     (.indx, 0x81), (.indy, 0x91)]
  | .stx =>
    [(.zp, 0x86), (.zpy, 0x96), (.abs, 0x8E)]
  | .sty =>
    [(.zp, 0x84), (.zpx, 0x94), (.abs, 0x8C)]
  | .adc =>
    [(.imm, 0x69), (.zp, 0x65), (.zpx, 0x75), (.abs, 0x6D), (.absx, 0x7D),
     (.absy, 0x79), (.indx, 0x61), (.indy, 0x71)]
  | .sbc =>
    [(.imm, 0xE9), (.zp, 0xE5), (.zpx, 0xF5), (.abs, 0xED), (.absx, 0xFD),
     (.absy, 0xF9), (.indx, 0xE1), (.indy, 0xF1)]
  | .and =>
    [(.imm, 0x29), (.zp, 0x25), (.zpx, 0x35), (.abs, 0x2D), (.absx, 0x3D),
     (.absy, 0x39), (.indx, 0x21), (.indy, 0x31)]
  | .ora =>
    [(.imm, 0x09), (.zp, 0x05), (.zpx, 0x15), (.abs, 0x0D), (.absx, 0x1D),
     (.absy, 0x19), (.indx, 0x01), (.indy, 0x11)]
  | .eor =>
    [(.imm, 0x49), (.zp, 0x45), (.zpx, 0x55), (.abs, 0x4D), (.absx, 0x5D),
     (.absy, 0x59), (.indx, 0x41), (.indy, 0x51)]
  | .inc =>
    [(.zp, 0xE6), (.zpx, 0xF6), (.abs, 0xEE), (.absx, 0xFE)]
  | .dec =>
    [(.zp, 0xC6), (.zpx, 0xD6), (.abs, 0xCE), (.absx, 0xDE)]
  | .inx =>
    [(.imp, 0xE8)]
  | .iny =>
    [(.imp, 0xC8)]
  | .dex =>
    [(.imp, 0xCA)]
  | .dey =>
    [(.imp, 0x88)]
  | .cmp =>
    [(.imm, 0xC9), (.zp, 0xC5), (.zpx, 0xD5), (.abs, 0xCD), (.absx, 0xDD),
     (.absy, 0xD9), (.indx, 0xC1), (.indy, 0xD1)]
  | .cpx =>
    [(.imm, 0xE0), (.zp, 0xE4), (.abs, 0xEC)]
  | .cpy =>
    [(.imm, 0xC0), (.zp, 0xC4), (.abs, 0xCC)]
  | .bit =>
    [(.zp, 0x24), (.abs, 0x2C)]
  | .jmp =>
    [(.abs, 0x4C), (.ind, 0x6C)]
  | .bcc =>
    [(.rel, 0x90)]
  | .bcs =>
    [(.rel, 0xB0)]
  | .beq =>
    [(.rel, 0xF0)]
  | .bne =>
    [(.rel, 0xD0)]
  | .bmi =>
    [(.rel, 0x30)]
  | .bpl =>
    [(.rel, 0x10)]
  | .bvc =>
    [(.rel, 0x50)]
  | .bvs =>
    [(.rel, 0x70)]
  | .asl =>
    [(.acc, 0x0A), (.zp, 0x06), (.zpx, 0x16), (.abs, 0x0E), (.absx, 0x1E)]
  | .lsr =>
    [(.acc, 0x4A), (.zp, 0x46), (.zpx, 0x56), (.abs, 0x4E), (.absx, 0x5E)]
  | .rol =>
    [(.acc, 0x2A), (.zp, 0x26), (.zpx, 0x36), (.abs, 0x2E), (.absx, 0x3E)]
  | .ror =>
    [(.acc, 0x6A), (.zp, 0x66), (.zpx, 0x76), (.abs, 0x6E), (.absx, 0x7E)]
  | .brk =>
    [(.imp, 0x00)]
  | .rti =>
    [(.imp, 0x40)]
  | .rts =>
    [(.imp, 0x60)]
  | .jsr =>
    [(.abs, 0x20)]
  | .pha =>
    [(.imp, 0x48)]
  | .pla =>
    [(.imp, 0x68)]
  | .php =>
    [(.imp, 0x08)]
  | .plp =>
    [(.imp, 0x28)]
  | .clc =>
    [(.imp, 0x18)]
  | .sec =>
    [(.imp, 0x38)]
  | .cli =>
    [(.imp, 0x58)]
  | .sei =>
    [(.imp, 0x78)]
  | .clv =>
    [(.imp, 0xB8)]
  | .cld =>
    [(.imp, 0xD8)]
  | .sed =>
    [(.imp, 0xF8)]
  | .tax =>
    [(.imp, 0xAA)]
  | .tay =>
    [(.imp, 0xA8)]
  | .txa =>
    [(.imp, 0x8A)]
  | .tya =>
    [(.imp, 0x98)]
  | .tsx =>
    [(.imp, 0xBA)]
  | .txs =>
    [(.imp, 0x9A)]
  | .nop =>
    [(.imp, 0xEA)]

/-- The opcode byte of a mnemonic in a mode, where it has one. -/
def Kind.opcode (k : Kind) (m : Mode) : Option Byte := k.encodings.lookup m

/-- The operand bytes in the order they stand in memory (R90, R91). -/
def Operand.bytes : Operand → List Byte
  | .imp | .acc => []
  | .imm v => [v]
  | .zp z | .zpx z | .zpy z | .indx z | .indy z => [z]
  | .rel off => [off]
  | .abs w | .absx w | .absy w | .ind w => [loByte w, hiByte w]

/-- The bytes of a well-formed instruction; no bytes for a pairing of mnemonic and mode that the spec does not
encode. -/
def encode (i : Instr) : List Byte :=
  match i.view with
  | .inl b => [b]
  | .inr (k, op) =>
    match k.opcode op.mode with
    | some b => b :: op.bytes
    | none => []

end Sys2Proof
end

