-- ==== Sys2Proof/Machine/Memory.lean ====
section
/-! DEFINITION. The bus contents (spec/20_memory.md R50, R54): a plain memory of 65536 bytes, held as a list of
(address, byte) pairs in one canonical form. -/

namespace Sys2Proof.Machine

/-- The bus contents: the addresses whose byte differs from `blank`, strictly rising. -/
abbrev Memory := List Host.Cell

namespace Memory

/-- What an unlisted address reads as. DESIGN CHOICE, log entry 1 (unsafe): the spec makes the initial contents a launch
parameter (D27); its own test vectors and Scenario A take 0 for every byte not listed. -/
def blank : Byte := 0

/-- The byte at an address (R54: the last value written, or the initial contents). -/
def read : Memory → Nat → Byte
  | [], _ => blank
  | (k, v) :: rest, a => if k = a then v else read rest a

/-- Store one byte and change no other (R54), keeping the canonical form. -/
def write : Memory → Nat → Byte → Memory
  | [], a, v => if v = blank then [] else [(a, v)]
  | (k, w) :: rest, a, v =>
    if a < k then (if v = blank then (k, w) :: rest else (a, v) :: (k, w) :: rest)
    else if a = k then (if v = blank then rest else (a, v) :: rest)
    else (k, w) :: write rest a v

/-- The canonical form above a bound: addresses strictly rising from `lo`, inside the 64 KiB space, no byte equal to
`blank`. -/
def wfFrom (lo : Nat) : Memory → Bool
  | [] => true
  | (k, v) :: rest => decide (lo ≤ k) && decide (k < 65536) && (v != blank) && wfFrom (k + 1) rest

/-- The canonical form. -/
def wf (m : Memory) : Bool := wfFrom 0 m

end Memory

end Sys2Proof.Machine
end

