-- ==== Sys2Proof/Machine/State.lean ====
section
/-! DEFINITION. The state of the block (spec/10_state.md R20 to R41), the reasons a step fails
(spec/60_exceptions.md R240 to R243), and the state after construction (spec/70_reset_and_hazards.md R270). -/

namespace Sys2Proof.Machine

/-- The architectural state, exactly what R20 lists, with the bus contents kept beside it (R38). -/
structure State where
  /-- The accumulator A (R21). -/
  a   : Byte
  /-- The index register X (R22). -/
  x   : Byte
  /-- The index register Y (R23). -/
  y   : Byte
  /-- The stack pointer S (R24). -/
  sp  : Byte
  /-- The processor status P, bits N V U B D I Z C from 7 down to 0 (R26). -/
  p   : Byte
  /-- The program counter PC (R25). -/
  pc  : Word
  /-- The remaining-cycle counter RC (R37). Log entry 4: a natural number (safe). -/
  rc  : Nat
  /-- The bus contents (R38, R50). -/
  mem : Memory
  deriving DecidableEq, Repr

/-- The failures of a step (R240). Each stops the run with the state before the failing step (R246); safe. -/
inductive Fault where
  /-- Raised by the meaning of an undefined opcode byte (R123, R241). Safe: the spec's own failure. -/
  | invalidOpcode (byte : Byte)
  /-- Raised by the meanings of the 26 mnemonics without a behaviour (R124, R210, R242); the kind stands for its
  mnemonic string. Safe: the spec's own failure. -/
  | unsupportedInstruction (kind : Kind)
  /-- Raised by the addressing resolver for a mode without a read or a write (R61, R68, R73, R243), and by JMP and the
  branches for a mode their rules do not give (log entry 6). Unreachable with the spec's table. Safe: the spec's own
  failure. -/
  | unsupportedAddressingMode (mode : Mode) (direction : Direction)
  deriving DecidableEq, Repr

/-- Why an instruction has no meaning here. -/
inductive Refusal where
  /-- An arm of `exec` without a meaning yet; no arm answers so. Safe. -/
  | notModelled (mnemonic : String)
  /-- Raised by a behaviour in (Indirect,X) or (Indirect),Y when INDIRECT_SEMANTICS = source (R71, R72, R130);
  unreachable with the spec's parameters. Safe: the spec asks for this refusal. -/
  | indirectVariant (mode : Mode)
  deriving DecidableEq, Repr

/-- The state after construction on a bus where nothing is listed (R270; R21 to R24, R37): PC is the little-endian word
at RESET_VECTOR, S is 0xFF, everything else 0. -/
def State.reset : State where
  a   := 0x00
  x   := 0x00
  y   := 0x00
  sp  := 0xFF
  p   := 0x00
  pc  := wordOf (Memory.read [] Config.spec.resetVector.toNat) (Memory.read [] (Config.spec.resetVector.toNat + 1))
  rc  := 0
  mem := []

end Sys2Proof.Machine
end

