-- ==== Sys2Proof/Machine/Ops.lean ====
section
/-! DEFINITION. The operations every meaning is written over: outcomes and how they follow one another, the register
writes, the bus (spec/20_memory.md R50 to R55), the PC update (spec/40_engine.md R127), and a failure
(spec/60_exceptions.md R246). The block has no trap entry and no trap return: a failure saves no state, changes no mode
and transfers control nowhere (R246, R247), so `raise` is the whole of "taking an exception". -/

namespace Sys2Proof.Machine

/-- The outcome of computing a value: the value, a failure of the step, or a refusal. -/
abbrev Result (α : Type) := Host.Outcome α Fault Refusal

/-- The outcome of running an instruction. -/
abbrev Exec := Result State

/-- Do one computation after another; the first failure or refusal is the outcome (R245). -/
def andThen {α β : Type} (r : Result α) (k : α → Result β) : Result β :=
  match r with
  | .next v => k v
  | .fault f => .fault f
  | .refused w => .refused w

/-- `raise E(info)` (R8, R246): the step ends with the failure and commits nothing. -/
def raise {α : Type} (f : Fault) : Result α := .fault f

namespace State

/-! ## Register writes -/

def setA (s : State) (v : Byte) : State := { s with a := v }
def setX (s : State) (v : Byte) : State := { s with x := v }
def setY (s : State) (v : Byte) : State := { s with y := v }
def setP (s : State) (v : Byte) : State := { s with p := v }
def setPc (s : State) (w : Word) : State := { s with pc := w }
def setRc (s : State) (n : Nat) : State := { s with rc := n }
def setMem (s : State) (m : Memory) : State := { s with mem := m }

/-! ## The bus -/

/-- `MemRead(addr, 1)` (R50, R54). -/
def read (s : State) (addr : Word) : Byte := Memory.read s.mem addr.toNat

/-- `MemWrite(addr, 1, v)` (R50, R54). -/
def write (s : State) (addr : Word) (v : Byte) : State := s.setMem (Memory.write s.mem addr.toNat v)

/-- `Read16(a)`, wrapping from 0xFFFF to 0x0000 (R52). -/
def read16 (s : State) (addr : Word) : Word := wordOf (s.read addr) (s.read (addr + 1))

/-- `Read16ZP(z)`, both bytes in zero page (R53). -/
def read16zp (s : State) (z : Byte) : Word := wordOf (s.read (zext16 z)) (s.read (zext16 (z + 1)))

/-- `PC <- u16(PC0 + len)` (R127). -/
def advance (s : State) (op : Operand) : State := s.setPc (s.pc + BitVec.ofNat 16 op.length)

end State

end Sys2Proof.Machine
end

