-- ==== Sys2Proof/Machine/Flags.lean ====
section
/-! DEFINITION. The processor status byte (spec/10_state.md R26 to R36) and the ALU's results with their flags
(spec/42_arithmetic.md R150, R151; spec/45_compare_bit.md R180 to R183). -/

namespace Sys2Proof.Machine

/-- The named bits of P (R26). -/
inductive Flag where
  | n | v | u | b | d | i | z | c
  deriving DecidableEq, Repr

/-- The bit number of a flag (R26). -/
def Flag.bit : Flag → Nat
  | .n => 7
  | .v => 6
  | .u => 5
  | .b => 4
  | .d => 3
  | .i => 2
  | .z => 1
  | .c => 0

/-- `is_set(flag)` on a status byte (R35). -/
def getFlag (p : Byte) (f : Flag) : Bool := p.getLsbD f.bit

/-- `set(flag, b)` on a status byte: that bit is written and every other bit kept (R35, R36). -/
def setFlag (p : Byte) (f : Flag) (b : Bool) : Byte :=
  (p &&& ~~~((1 : Byte) <<< f.bit)) ||| ((BitVec.ofBool b).setWidth 8 <<< f.bit)

namespace State

/-- `is_set(flag)` (R35). -/
def flag (s : State) (f : Flag) : Bool := getFlag s.p f

/-- `set(flag, b)` (R35). -/
def putFlag (s : State) (f : Flag) (b : Bool) : State := s.setP (setFlag s.p f b)

/-- `set_negative(v)`: N from bit 7 of an 8-bit value (R27, R35). -/
def setNegative (s : State) (v : Byte) : State := s.putFlag .n (v.getLsbD 7)

/-- `set_zero(v)`: Z iff the value is 0 (R33, R35). -/
def setZero (s : State) (v : Byte) : State := s.putFlag .z (v == 0)

/-- `set_carry(b)` (R35). -/
def setCarry (s : State) (b : Bool) : State := s.putFlag .c b

/-- `set_overflow(b)` (R35). -/
def setOverflow (s : State) (b : Bool) : State := s.putFlag .v b

/-- `get_carry()` (R35). -/
def getCarry (s : State) : Bool := s.flag .c

/-- `SetNZ(v)` (R10). -/
def setNZ (s : State) (v : Byte) : State := (s.setNegative v).setZero v

end State

/-- A result of the adder: the 8-bit value, the carry and the overflow. -/
structure AluResult where
  value    : Byte
  carry    : Bool
  overflow : Bool
  deriving DecidableEq, Repr

/-- ADC's sum, true carry out and sign-rule overflow (R150). Binary whatever P.D holds (R31). -/
def adcResult (a m : Byte) (c : Bool) : AluResult :=
  let sum := a.toNat + m.toNat + c.toNat
  let r   := BitVec.ofNat 8 sum
  { value := r, carry := decide (sum > 255), overflow := (~~~(a ^^^ m) &&& (a ^^^ r)).getLsbD 7 }

/-- SBC's difference, no-borrow carry and sign-rule overflow (R151). Binary whatever P.D holds (R31). -/
def sbcResult (a m : Byte) (c : Bool) : AluResult :=
  let diff : Int := (a.toNat : Int) - m.toNat - (1 - c.toNat)
  let r := BitVec.ofInt 8 diff
  { value := r, carry := decide (diff ≥ 0), overflow := ((a ^^^ m) &&& (a ^^^ r)).getLsbD 7 }

namespace State

/-- What ADC and SBC write: A, then C, V, N and Z from the result (R150, R151). -/
def putAlu (s : State) (r : AluResult) : State :=
  (((s.setCarry r.carry).setOverflow r.overflow).setA r.value).setNZ r.value

/-- What a compare of register value `v` with `m` writes: N and Z of the wrapped difference, C iff `v ≥ m` unsigned
(R180 to R182). -/
def putCompare (s : State) (v m : Byte) : State :=
  (s.setNZ (v - m)).setCarry (decide (v.toNat ≥ m.toNat))

/-- What BIT writes: N and V from bits 7 and 6 of the operand, Z from `A & m` (R183). -/
def putBitTest (s : State) (m : Byte) : State :=
  ((s.putFlag .n (m.getLsbD 7)).putFlag .v (m.getLsbD 6)).setZero (s.a &&& m)

end State

end Sys2Proof.Machine
end

