-- ==== Sys2Proof/Machine/Operands.lean ====
section
/-! DEFINITION. The addressing resolver (spec/20_memory.md R60 to R75): every mode, both directions, for any value of
`INDIRECT_SEMANTICS`. The operand bytes are those the decoder read at PC0 + 1 and PC0 + 2. -/

namespace Sys2Proof.Machine

/-- The effective address of an operand, or the failure of a mode that has none in this direction (R61 to R73). -/
def address (c : Config) (dir : Direction) (op : Operand) (s : State) : Result Word :=
  match op with
  | .zp z => .next (zext16 z)
  | .zpx z => .next (zext16 (z + s.x))
  | .zpy z => .next (zext16 (z + s.y))
  | .abs w => .next w
  | .absx w => .next (w + zext16 s.x)
  | .absy w => .next (w + zext16 s.y)
  | .indx z =>
    match c.indirect with
    | .official => .next (s.read16zp (z + s.x))
    | .source => .refused (.indirectVariant .indx)
  | .indy z =>
    match c.indirect with
    | .official => .next (s.read16zp z + zext16 s.y)
    | .source => .refused (.indirectVariant .indy)
  | .imm _ => raise (.unsupportedAddressingMode .imm dir)
  | .ind _ => raise (.unsupportedAddressingMode .ind dir)
  | .imp => raise (.unsupportedAddressingMode .imp dir)
  | .acc => raise (.unsupportedAddressingMode .acc dir)
  | .rel _ => raise (.unsupportedAddressingMode .rel dir)

/-- The read operation of a mode: the immediate value, or the byte at the effective address, unextended
(R61, R74). -/
def readOperand (c : Config) (op : Operand) (s : State) : Result Byte :=
  match op with
  | .imm v => .next v
  | _ => andThen (address c .read op s) fun a => .next (s.read a)

/-- The write operation of a mode: exactly one bus write, at the effective address of the same rule (R75). -/
def writeOperand (c : Config) (op : Operand) (v : Byte) (s : State) : Exec :=
  andThen (address c .write op s) fun a => .next (s.write a v)

/-- The refusal of R130 for the behaviours that do not call the resolver: under INDIRECT_SEMANTICS = source a behaviour
whose entry's mode is (Indirect,X) or (Indirect),Y is refused. Unreachable with the spec's table. -/
def unlessVariant (c : Config) (op : Operand) (r : Exec) : Exec :=
  match c.indirect, op with
  | .source, .indx _ => .refused (.indirectVariant .indx)
  | .source, .indy _ => .refused (.indirectVariant .indy)
  | _, _ => r

end Sys2Proof.Machine
end

