-- ==== Sys2Proof/Machine/Arithmetic.lean ====
section
/-! DEFINITION. Add and subtract with carry (spec/42_arithmetic.md R150, R151). -/

namespace Sys2Proof.Machine

/-- An arithmetic instruction: the adder's result of the operand and the carry flag goes to A and the four flags; PC
advances by the length. -/
def arithmetic (c : Config) (op : Operand) (f : Byte → Byte → Bool → AluResult) (s : State) : Exec :=
  andThen (readOperand c op s) fun m => .next ((s.putAlu (f s.a m s.getCarry)).advance op)

/-- ADC for any parameters: A + operand + carry (R150). -/
def adcWith (c : Config) (op : Operand) (s : State) : Exec := arithmetic c op adcResult s

/-- ADC with the spec's parameters (R150). -/
def execAdc (op : Operand) (s : State) : Exec := adcWith Config.spec op s

/-- SBC for any parameters: A - operand - (1 - carry) (R151). -/
def sbcWith (c : Config) (op : Operand) (s : State) : Exec := arithmetic c op sbcResult s

/-- SBC with the spec's parameters (R151). -/
def execSbc (op : Operand) (s : State) : Exec := sbcWith Config.spec op s

end Sys2Proof.Machine
end

