-- ==== Sys2Proof/Machine/CompareBit.lean ====
section
/-! DEFINITION. Compare and bit test (spec/45_compare_bit.md R180 to R183). -/

namespace Sys2Proof.Machine

/-- A compare of a register's value with the operand: N, Z and C, no register; PC advances by the length. -/
def compareWith (c : Config) (op : Operand) (v : Byte) (s : State) : Exec :=
  andThen (readOperand c op s) fun m => .next ((s.putCompare v m).advance op)

/-- CMP for any parameters: A against the operand (R180). -/
def cmpWith (c : Config) (op : Operand) (s : State) : Exec := compareWith c op s.a s

/-- CMP with the spec's parameters (R180). -/
def execCmp (op : Operand) (s : State) : Exec := cmpWith Config.spec op s

/-- CPX for any parameters: X against the operand (R181). -/
def cpxWith (c : Config) (op : Operand) (s : State) : Exec := compareWith c op s.x s

/-- CPX with the spec's parameters (R181). -/
def execCpx (op : Operand) (s : State) : Exec := cpxWith Config.spec op s

/-- CPY for any parameters: Y against the operand (R182). -/
def cpyWith (c : Config) (op : Operand) (s : State) : Exec := compareWith c op s.y s

/-- CPY with the spec's parameters (R182). -/
def execCpy (op : Operand) (s : State) : Exec := cpyWith Config.spec op s

/-- BIT for any parameters: N and V from the operand, Z from A & operand (R183). -/
def bitWith (c : Config) (op : Operand) (s : State) : Exec :=
  andThen (readOperand c op s) fun m => .next ((s.putBitTest m).advance op)

/-- BIT with the spec's parameters (R183). -/
def execBit (op : Operand) (s : State) : Exec := bitWith Config.spec op s

end Sys2Proof.Machine
end

