-- ==== Sys2Proof/Machine/Control.lean ====
section
/-! DEFINITION. Jump and conditional branches (spec/46_control.md R190 to R199). -/

namespace Sys2Proof.Machine

/-- The address of the second byte of a pointer at `w`, kept in the pointer's own page (R190, nmos_page_wrap). -/
def samePageNext (w : Word) : Word := wordOf (loByte w + 1) (hiByte w)

/-- The target of `JMP (w)` for each value of `JMP_INDIRECT` (R190). -/
def jmpIndirectTarget (c : Config) (w : Word) (s : State) : Word :=
  match c.jmpIndirect with
  | .nmosPageWrap => wordOf (s.read w) (s.read (samePageNext w))
  | .linear => s.read16 w
  | .literal => w

/-- The target of a branch with offset byte `off`: past the instruction, and further by the signed offset when it is
taken (R191). -/
def branchTarget (taken : Bool) (off : Byte) (s : State) : Word :=
  if taken then s.pc + 2 + sext16 off else s.pc + 2

/-- A conditional branch: PC alone changes (R191). A mode other than Relative is one the rule cannot resolve
(DEDUCED, log entry 6; unreachable with the spec's table). -/
def branch (c : Config) (op : Operand) (taken : Bool) (s : State) : Exec :=
  unlessVariant c op <| match op with
    | .rel off => .next (s.setPc (branchTarget taken off s))
    | _ => raise (.unsupportedAddressingMode op.mode .read)

/-- JMP for any parameters: PC to the target. A mode other than Absolute and Indirect is one the rule cannot resolve (DEDUCED,
log entry 6) (R190). -/
def jmpWith (c : Config) (op : Operand) (s : State) : Exec :=
  unlessVariant c op <| match op with
    | .abs w => .next (s.setPc w)
    | .ind w => .next (s.setPc (jmpIndirectTarget c w s))
    | _ => raise (.unsupportedAddressingMode op.mode .read)

/-- JMP with the spec's parameters (R190). -/
def execJmp (op : Operand) (s : State) : Exec := jmpWith Config.spec op s

/-- BCC for any parameters: taken iff P.C = 0 (R192). -/
def bccWith (c : Config) (op : Operand) (s : State) : Exec := branch c op (!s.flag .c) s

/-- BCC with the spec's parameters (R192). -/
def execBcc (op : Operand) (s : State) : Exec := bccWith Config.spec op s

/-- BCS for any parameters: taken iff P.C = 1 (R193). -/
def bcsWith (c : Config) (op : Operand) (s : State) : Exec := branch c op (s.flag .c) s

/-- BCS with the spec's parameters (R193). -/
def execBcs (op : Operand) (s : State) : Exec := bcsWith Config.spec op s

/-- BEQ for any parameters: taken iff P.Z = 1 (R194). -/
def beqWith (c : Config) (op : Operand) (s : State) : Exec := branch c op (s.flag .z) s

/-- BEQ with the spec's parameters (R194). -/
def execBeq (op : Operand) (s : State) : Exec := beqWith Config.spec op s

/-- BNE for any parameters: taken iff P.Z = 0 (R195). -/
def bneWith (c : Config) (op : Operand) (s : State) : Exec := branch c op (!s.flag .z) s

/-- BNE with the spec's parameters (R195). -/
def execBne (op : Operand) (s : State) : Exec := bneWith Config.spec op s

/-- BMI for any parameters: taken iff P.N = 1 (R196). -/
def bmiWith (c : Config) (op : Operand) (s : State) : Exec := branch c op (s.flag .n) s

/-- BMI with the spec's parameters (R196). -/
def execBmi (op : Operand) (s : State) : Exec := bmiWith Config.spec op s

/-- BPL for any parameters: taken iff P.N = 0 (R197). -/
def bplWith (c : Config) (op : Operand) (s : State) : Exec := branch c op (!s.flag .n) s

/-- BPL with the spec's parameters (R197). -/
def execBpl (op : Operand) (s : State) : Exec := bplWith Config.spec op s

/-- BVC for any parameters: taken iff P.V = 0 (R198). -/
def bvcWith (c : Config) (op : Operand) (s : State) : Exec := branch c op (!s.flag .v) s

/-- BVC with the spec's parameters (R198). -/
def execBvc (op : Operand) (s : State) : Exec := bvcWith Config.spec op s

/-- BVS for any parameters: taken iff P.V = 1 (R199). -/
def bvsWith (c : Config) (op : Operand) (s : State) : Exec := branch c op (s.flag .v) s

/-- BVS with the spec's parameters (R199). -/
def execBvs (op : Operand) (s : State) : Exec := bvsWith Config.spec op s

end Sys2Proof.Machine
end

