-- ==== Sys2Proof/Machine/IncDec.lean ====
section
/-! DEFINITION. Increment and decrement (spec/44_incdec.md R170 to R175). -/

namespace Sys2Proof.Machine

/-- A read-modify-write of one memory byte: the resolver is asked to read, then to write, at the same address; N and Z
from the new value; PC advances by the length (R170, R243). -/
def modifyMemory (c : Config) (op : Operand) (f : Byte → Byte) (s : State) : Exec :=
  andThen (readOperand c op s) fun m =>
  andThen (writeOperand c op (f m) s) fun t => .next ((t.setNZ (f m)).advance op)

/-- An increment or decrement of a register: the new value, N and Z from it, PC past the instruction; the resolver is
not called (R73, R172 to R175). -/
def modifyRegister (c : Config) (op : Operand) (put : State → Byte → State) (v : Byte) (s : State) : Exec :=
  unlessVariant c op (.next (((put s v).setNZ v).advance op))

/-- INC for any parameters: memory byte + 1 (R170). -/
def incWith (c : Config) (op : Operand) (s : State) : Exec := modifyMemory c op (fun m => m + 1) s

/-- INC with the spec's parameters (R170). -/
def execInc (op : Operand) (s : State) : Exec := incWith Config.spec op s

/-- DEC for any parameters: memory byte - 1 (R171). -/
def decWith (c : Config) (op : Operand) (s : State) : Exec := modifyMemory c op (fun m => m - 1) s

/-- DEC with the spec's parameters (R171). -/
def execDec (op : Operand) (s : State) : Exec := decWith Config.spec op s

/-- INX for any parameters: X + 1 (R172). -/
def inxWith (c : Config) (op : Operand) (s : State) : Exec := modifyRegister c op State.setX (s.x + 1) s

/-- INX with the spec's parameters (R172). -/
def execInx (op : Operand) (s : State) : Exec := inxWith Config.spec op s

/-- INY for any parameters: Y + 1 (R173). -/
def inyWith (c : Config) (op : Operand) (s : State) : Exec := modifyRegister c op State.setY (s.y + 1) s

/-- INY with the spec's parameters (R173). -/
def execIny (op : Operand) (s : State) : Exec := inyWith Config.spec op s

/-- DEX for any parameters: X - 1 (R174). -/
def dexWith (c : Config) (op : Operand) (s : State) : Exec := modifyRegister c op State.setX (s.x - 1) s

/-- DEX with the spec's parameters (R174). -/
def execDex (op : Operand) (s : State) : Exec := dexWith Config.spec op s

/-- DEY for any parameters: Y - 1 (R175). -/
def deyWith (c : Config) (op : Operand) (s : State) : Exec := modifyRegister c op State.setY (s.y - 1) s

/-- DEY with the spec's parameters (R175). -/
def execDey (op : Operand) (s : State) : Exec := deyWith Config.spec op s

end Sys2Proof.Machine
end

