-- ==== Sys2Proof/Machine/LoadStore.lean ====
section
/-! DEFINITION. Loads and stores (spec/41_load_store.md R140 to R145). -/

namespace Sys2Proof.Machine

/-- A load: the operand goes to a register and sets N and Z; PC advances by the length. -/
def load (c : Config) (op : Operand) (put : State → Byte → State) (s : State) : Exec :=
  andThen (readOperand c op s) fun v => .next (((put s v).setNZ v).advance op)

/-- A store: a register's byte goes to the effective address, no flag changes, PC advances by the length. -/
def store (c : Config) (op : Operand) (v : Byte) (s : State) : Exec :=
  andThen (writeOperand c op v s) fun t => .next (t.advance op)

/-- LDA for any parameters: A from the operand (R140). -/
def ldaWith (c : Config) (op : Operand) (s : State) : Exec := load c op State.setA s

/-- LDA with the spec's parameters (R140). -/
def execLda (op : Operand) (s : State) : Exec := ldaWith Config.spec op s

/-- LDX for any parameters: X from the operand (R141). -/
def ldxWith (c : Config) (op : Operand) (s : State) : Exec := load c op State.setX s

/-- LDX with the spec's parameters (R141). -/
def execLdx (op : Operand) (s : State) : Exec := ldxWith Config.spec op s

/-- LDY for any parameters: Y from the operand (R142). -/
def ldyWith (c : Config) (op : Operand) (s : State) : Exec := load c op State.setY s

/-- LDY with the spec's parameters (R142). -/
def execLdy (op : Operand) (s : State) : Exec := ldyWith Config.spec op s

/-- STA for any parameters: A to memory (R143). -/
def staWith (c : Config) (op : Operand) (s : State) : Exec := store c op s.a s

/-- STA with the spec's parameters (R143). -/
def execSta (op : Operand) (s : State) : Exec := staWith Config.spec op s

/-- STX for any parameters: X to memory (R144). -/
def stxWith (c : Config) (op : Operand) (s : State) : Exec := store c op s.x s

/-- STX with the spec's parameters (R144). -/
def execStx (op : Operand) (s : State) : Exec := stxWith Config.spec op s

/-- STY for any parameters: Y to memory (R145). -/
def styWith (c : Config) (op : Operand) (s : State) : Exec := store c op s.y s

/-- STY with the spec's parameters (R145). -/
def execSty (op : Operand) (s : State) : Exec := styWith Config.spec op s

end Sys2Proof.Machine
end

