-- ==== Sys2Proof/Machine/Logical.lean ====
section
/-! DEFINITION. Logical instructions (spec/43_logical.md R160 to R162). -/

namespace Sys2Proof.Machine

/-- A logical instruction: a bitwise operation of A and the operand goes to A and sets N and Z; PC advances by the
length. -/
def logical (c : Config) (op : Operand) (f : Byte → Byte → Byte) (s : State) : Exec :=
  andThen (readOperand c op s) fun m => .next (((s.setA (f s.a m)).setNZ (f s.a m)).advance op)

/-- AND for any parameters: A & operand (R160). -/
def andWith (c : Config) (op : Operand) (s : State) : Exec := logical c op (fun a m => a &&& m) s

/-- AND with the spec's parameters (R160). -/
def execAnd (op : Operand) (s : State) : Exec := andWith Config.spec op s

/-- ORA for any parameters: A | operand (R161). -/
def oraWith (c : Config) (op : Operand) (s : State) : Exec := logical c op (fun a m => a ||| m) s

/-- ORA with the spec's parameters (R161). -/
def execOra (op : Operand) (s : State) : Exec := oraWith Config.spec op s

/-- EOR for any parameters: A ^ operand (R162). -/
def eorWith (c : Config) (op : Operand) (s : State) : Exec := logical c op (fun a m => a ^^^ m) s

/-- EOR with the spec's parameters (R162). -/
def execEor (op : Operand) (s : State) : Exec := eorWith Config.spec op s

end Sys2Proof.Machine
end

