-- ==== Sys2Proof/Machine/Unsupported.lean ====
section
/-! DEFINITION. What the table does not give a behaviour (spec/47_unsupported.md R210 to R236, spec/40_engine.md R123,
R124): the step fails by name and changes nothing, whatever the state and the operand bytes hold. NOTES.md, Stops, has
one line for each. -/

namespace Sys2Proof.Machine

/-- The common rule of the 26 unimplemented mnemonics (R210). -/
def unsupported (k : Kind) : Exec := raise (.unsupportedInstruction k)

/-- ASL fails (R211). -/
def execAsl (_op : Operand) (_s : State) : Exec := unsupported .asl

/-- LSR fails (R212). -/
def execLsr (_op : Operand) (_s : State) : Exec := unsupported .lsr

/-- ROL fails (R213). -/
def execRol (_op : Operand) (_s : State) : Exec := unsupported .rol

/-- ROR fails (R214). -/
def execRor (_op : Operand) (_s : State) : Exec := unsupported .ror

/-- BRK fails (R215). -/
def execBrk (_op : Operand) (_s : State) : Exec := unsupported .brk

/-- RTI fails (R216). -/
def execRti (_op : Operand) (_s : State) : Exec := unsupported .rti

/-- RTS fails (R217). -/
def execRts (_op : Operand) (_s : State) : Exec := unsupported .rts

/-- JSR fails (R218). -/
def execJsr (_op : Operand) (_s : State) : Exec := unsupported .jsr

/-- PHA fails (R219). -/
def execPha (_op : Operand) (_s : State) : Exec := unsupported .pha

/-- PLA fails (R220). -/
def execPla (_op : Operand) (_s : State) : Exec := unsupported .pla

/-- PHP fails (R221). -/
def execPhp (_op : Operand) (_s : State) : Exec := unsupported .php

/-- PLP fails (R222). -/
def execPlp (_op : Operand) (_s : State) : Exec := unsupported .plp

/-- CLC fails (R223). -/
def execClc (_op : Operand) (_s : State) : Exec := unsupported .clc

/-- SEC fails (R224). -/
def execSec (_op : Operand) (_s : State) : Exec := unsupported .sec

/-- CLI fails (R225). -/
def execCli (_op : Operand) (_s : State) : Exec := unsupported .cli

/-- SEI fails (R226). -/
def execSei (_op : Operand) (_s : State) : Exec := unsupported .sei

/-- CLV fails (R227). -/
def execClv (_op : Operand) (_s : State) : Exec := unsupported .clv

/-- CLD fails (R228). -/
def execCld (_op : Operand) (_s : State) : Exec := unsupported .cld

/-- SED fails (R229). -/
def execSed (_op : Operand) (_s : State) : Exec := unsupported .sed

/-- TAX fails (R230). -/
def execTax (_op : Operand) (_s : State) : Exec := unsupported .tax

/-- TAY fails (R231). -/
def execTay (_op : Operand) (_s : State) : Exec := unsupported .tay

/-- TXA fails (R232). -/
def execTxa (_op : Operand) (_s : State) : Exec := unsupported .txa

/-- TYA fails (R233). -/
def execTya (_op : Operand) (_s : State) : Exec := unsupported .tya

/-- TSX fails (R234). -/
def execTsx (_op : Operand) (_s : State) : Exec := unsupported .tsx

/-- TXS fails (R235). -/
def execTxs (_op : Operand) (_s : State) : Exec := unsupported .txs

/-- NOP fails (R236). -/
def execNop (_op : Operand) (_s : State) : Exec := unsupported .nop

/-- An undefined opcode byte fails with the raw byte (R98, R123, R241). -/
def execUndefined (byte : Byte) (_s : State) : Exec := raise (.invalidOpcode byte)

end Sys2Proof.Machine
end

