-- ==== Sys2Proof/Machine/Configured.lean ====
section
/-! DEFINITION. The same instructions under any value of the parameters of spec/00_scope.md R2 and R3. `exec` is this at
`Config.spec` (stated as an obligation). A model may be run with another table, another `INDIRECT_SEMANTICS` or another
`JMP_INDIRECT` (R94; D2, D7, D19). -/

namespace Sys2Proof.Machine

/-- Run an instruction with the parameters of `c` (R130). -/
def execWith (c : Config) (i : Instr) (s : State) : Exec :=
  match i with
  | .lda op => ldaWith c op s
  | .ldx op => ldxWith c op s
  | .ldy op => ldyWith c op s
  | .sta op => staWith c op s
  | .stx op => stxWith c op s
  | .sty op => styWith c op s
  | .adc op => adcWith c op s
  | .sbc op => sbcWith c op s
  | .and op => andWith c op s
  | .ora op => oraWith c op s
  | .eor op => eorWith c op s
  | .inc op => incWith c op s
  | .dec op => decWith c op s
  | .inx op => inxWith c op s
  | .iny op => inyWith c op s
  | .dex op => dexWith c op s
  | .dey op => deyWith c op s
  | .cmp op => cmpWith c op s
  | .cpx op => cpxWith c op s
  | .cpy op => cpyWith c op s
  | .bit op => bitWith c op s
  | .jmp op => jmpWith c op s
  | .bcc op => bccWith c op s
  | .bcs op => bcsWith c op s
  | .beq op => beqWith c op s
  | .bne op => bneWith c op s
  | .bmi op => bmiWith c op s
  | .bpl op => bplWith c op s
  | .bvc op => bvcWith c op s
  | .bvs op => bvsWith c op s
  | .asl op => execAsl op s
  | .lsr op => execLsr op s
  | .rol op => execRol op s
  | .ror op => execRor op s
  | .brk op => execBrk op s
  | .rti op => execRti op s
  | .rts op => execRts op s
  | .jsr op => execJsr op s
  | .pha op => execPha op s
  | .pla op => execPla op s
  | .php op => execPhp op s
  | .plp op => execPlp op s
  | .clc op => execClc op s
  | .sec op => execSec op s
  | .cli op => execCli op s
  | .sei op => execSei op s
  | .clv op => execClv op s
  | .cld op => execCld op s
  | .sed op => execSed op s
  | .tax op => execTax op s
  | .tay op => execTay op s
  | .txa op => execTxa op s
  | .tya op => execTya op s
  | .tsx op => execTsx op s
  | .txs op => execTxs op s
  | .nop op => execNop op s
  | .undefined byte => execUndefined byte s

end Sys2Proof.Machine
end

