-- ==== Sys2Proof/Machine/Dispatch.lean ====
section
/-! DEFINITION. One arm per instruction: the behaviours the spec registers (spec/40_engine.md R133) and the failures of
the other rows, each one direct call of its meaning. -/

namespace Sys2Proof.Machine

def exec (i : Instr) (s : State) : Host.Outcome State Fault Refusal :=
  match i with
  -- Load and store
  | .lda op => Sys2Proof.Machine.execLda op s
  | .ldx op => Sys2Proof.Machine.execLdx op s
  | .ldy op => Sys2Proof.Machine.execLdy op s
  | .sta op => Sys2Proof.Machine.execSta op s
  | .stx op => Sys2Proof.Machine.execStx op s
  | .sty op => Sys2Proof.Machine.execSty op s
  -- Add and subtract
  | .adc op => Sys2Proof.Machine.execAdc op s
  | .sbc op => Sys2Proof.Machine.execSbc op s
  -- Logical
  | .and op => Sys2Proof.Machine.execAnd op s
  | .ora op => Sys2Proof.Machine.execOra op s
  | .eor op => Sys2Proof.Machine.execEor op s
  -- Increment and decrement
  | .inc op => Sys2Proof.Machine.execInc op s
  | .dec op => Sys2Proof.Machine.execDec op s
  | .inx op => Sys2Proof.Machine.execInx op s
  | .iny op => Sys2Proof.Machine.execIny op s
  | .dex op => Sys2Proof.Machine.execDex op s
  | .dey op => Sys2Proof.Machine.execDey op s
  -- Compare and bit test
  | .cmp op => Sys2Proof.Machine.execCmp op s
  | .cpx op => Sys2Proof.Machine.execCpx op s
  | .cpy op => Sys2Proof.Machine.execCpy op s
  | .bit op => Sys2Proof.Machine.execBit op s
  -- Jump and branches
  | .jmp op => Sys2Proof.Machine.execJmp op s
  | .bcc op => Sys2Proof.Machine.execBcc op s
  | .bcs op => Sys2Proof.Machine.execBcs op s
  | .beq op => Sys2Proof.Machine.execBeq op s
  | .bne op => Sys2Proof.Machine.execBne op s
  | .bmi op => Sys2Proof.Machine.execBmi op s
  | .bpl op => Sys2Proof.Machine.execBpl op s
  | .bvc op => Sys2Proof.Machine.execBvc op s
  | .bvs op => Sys2Proof.Machine.execBvs op s
  -- Recognized, no behaviour
  | .asl op => Sys2Proof.Machine.execAsl op s
  | .lsr op => Sys2Proof.Machine.execLsr op s
  | .rol op => Sys2Proof.Machine.execRol op s
  | .ror op => Sys2Proof.Machine.execRor op s
  | .brk op => Sys2Proof.Machine.execBrk op s
  | .rti op => Sys2Proof.Machine.execRti op s
  | .rts op => Sys2Proof.Machine.execRts op s
  | .jsr op => Sys2Proof.Machine.execJsr op s
  | .pha op => Sys2Proof.Machine.execPha op s
  | .pla op => Sys2Proof.Machine.execPla op s
  | .php op => Sys2Proof.Machine.execPhp op s
  | .plp op => Sys2Proof.Machine.execPlp op s
  | .clc op => Sys2Proof.Machine.execClc op s
  | .sec op => Sys2Proof.Machine.execSec op s
  | .cli op => Sys2Proof.Machine.execCli op s
  | .sei op => Sys2Proof.Machine.execSei op s
  | .clv op => Sys2Proof.Machine.execClv op s
  | .cld op => Sys2Proof.Machine.execCld op s
  | .sed op => Sys2Proof.Machine.execSed op s
  | .tax op => Sys2Proof.Machine.execTax op s
  | .tay op => Sys2Proof.Machine.execTay op s
  | .txa op => Sys2Proof.Machine.execTxa op s
  | .tya op => Sys2Proof.Machine.execTya op s
  | .tsx op => Sys2Proof.Machine.execTsx op s
  | .txs op => Sys2Proof.Machine.execTxs op s
  | .nop op => Sys2Proof.Machine.execNop op s
  -- No table entry
  | .undefined byte => Sys2Proof.Machine.execUndefined byte s

end Sys2Proof.Machine
end

