-- ==== Sys2Proof/Machine/Engine.lean ====
section
/-! DEFINITION. The fetch-decode-execute engine (spec/40_engine.md R120 to R132) and construction
(spec/70_reset_and_hazards.md R270, R271; spec/30_encoding.md R94). -/

namespace Sys2Proof.Machine

/-- The base cycle count of an opcode byte (R92, R101); 0 for a byte without an entry, which no completed instruction
begins with. -/
def cyclesOf (t : OpcodeTable) (b : Byte) : Nat :=
  match t.lookup b with
  | some e => e.cycles
  | none => 0

namespace State

/-- The opcode byte at PC (R122). -/
def opcodeByte (s : State) : Byte := s.read s.pc

/-- The instruction at PC: its bytes are read from the bus at this step (R82, R122), at addresses that wrap (R90). -/
def fetchInstr (s : State) (t : OpcodeTable) : Instr :=
  decodeBytes t s.opcodeByte (s.read (s.pc + 1)) (s.read (s.pc + 2))

/-- A step in Idle-counting (R121). -/
def idle (s : State) : State := s.setRc (s.rc - 1)

/-- The end of a completed fetch-dispatch step: RC is the opcode's cycle count less 1 (R126). -/
def charge (s : State) (t : OpcodeTable) (opcode : Byte) : State := s.setRc (cyclesOf t opcode - 1)

end State

/-- A step in Fetch-dispatch (R122 to R126): read, look up, run the whole behaviour, then set RC; a failure commits
nothing. -/
def fetchDispatch (t : OpcodeTable) (run : Instr → State → Exec) (s : State) : Exec :=
  andThen (run (s.fetchInstr t) s) fun s' => .next (s'.charge t s.opcodeByte)

/-- The whole step (R120, R130): RC alone decides the engine's state. -/
def engineStep (t : OpcodeTable) (run : Instr → State → Exec) (s : State) : Exec :=
  if 0 < s.rc then .next s.idle else fetchDispatch t run s

/-- The step of a machine with the parameters of `c` (R94, D19). -/
def stepWith (c : Config) (s : State) : Exec := engineStep c.table (execWith c) s

/-- `construct(bus)` (R270): PC from the vector, S = 0xFF, every other register and flag 0; the bus is not written. -/
def construct (c : Config) (bus : Memory) : State where
  a   := 0x00
  x   := 0x00
  y   := 0x00
  sp  := 0xFF
  p   := 0x00
  pc  := wordOf (Memory.read bus c.resetVector.toNat) (Memory.read bus (c.resetVector.toNat + 1))
  rc  := 0
  mem := bus

/-- Why a machine is not started. -/
inductive LaunchError where
  /-- The table fails R96: refused before any step (R94). -/
  | malformedTable
  /-- The vector's second byte would lie past 0xFFFF (R4). -/
  | vectorCrossesTop
  deriving DecidableEq, Repr

/-- Start a machine: the configuration is checked, then the block is constructed (R94, R270). -/
def launch (c : Config) (bus : Memory) : Except LaunchError State :=
  if !c.table.wf then .error .malformedTable
  else if c.resetVector == 0xFFFF then .error .vectorCrossesTop
  else .ok (construct c bus)

/-- Store bytes at PC, PC + 1, ... -/
def placeAt (s : State) (addr : Word) : List Byte → State
  | [] => s
  | b :: rest => placeAt (s.write addr b) (addr + 1) rest

end Sys2Proof.Machine
end

