-- ==== Sys2Proof/Machine/Step.lean ====
section
/-! DEFINITION. The step with the spec's parameters (spec/40_engine.md R130), and how a word is placed for it to run. -/

namespace Sys2Proof.Machine

/-- One call of `step()` (R120 to R130). -/
def step (s : State) : Host.Outcome State Fault Refusal := engineStep Config.spec.table exec s

/-- The state with an instruction of the given low bits stored where the next step fetches it, at PC, PC + 1, PC + 2,
and with RC = 0 so that the next step fetches (R120). Log entry 2. -/
def State.withFetchWord (s : State) (nbits w : Nat) : State :=
  placeAt (s.setRc 0) s.pc (tableBytes nbits w)

end Sys2Proof.Machine
end

