-- ==== Sys2Proof/Laws/Decode.lean ====
section
/-! SUPPORT. The encoder's tables and the decoder's map agree, byte order undoes itself, and an instruction taken apart is
put together again. -/

namespace Sys2Proof

theorem wordOf_toNat (lo hi : Byte) : (wordOf lo hi).toNat = hi.toNat * 256 + lo.toNat := by
  have h : (wordOf lo hi).toNat = hi.toNat <<< 8 ||| lo.toNat := BitVec.toNat_append hi lo
  rw [h, ← Nat.shiftLeft_add_eq_or_of_lt lo.isLt, Nat.shiftLeft_eq]

theorem loByte_toNat (w : Word) : (loByte w).toNat = w.toNat % 256 := by
  simp [loByte]

theorem hiByte_toNat (w : Word) : (hiByte w).toNat = w.toNat / 256 := by
  have := w.isLt
  simp only [hiByte, BitVec.toNat_setWidth, BitVec.toNat_ushiftRight, Nat.shiftRight_eq_div_pow]
  omega

@[simp] theorem wordOf_bytes (w : Word) : wordOf (loByte w) (hiByte w) = w := by
  apply BitVec.eq_of_toNat_eq
  rw [wordOf_toNat, loByte_toNat, hiByte_toNat]
  omega

@[simp] theorem loByte_wordOf (lo hi : Byte) : loByte (wordOf lo hi) = lo := by
  apply BitVec.eq_of_toNat_eq
  have := lo.isLt
  rw [loByte_toNat, wordOf_toNat]
  omega

@[simp] theorem hiByte_wordOf (lo hi : Byte) : hiByte (wordOf lo hi) = hi := by
  apply BitVec.eq_of_toNat_eq
  have := lo.isLt
  rw [hiByte_toNat, wordOf_toNat]
  omega

/-- The operand bytes in memory make the operand again (R91). -/
theorem ofBytes_bytes (op : Operand) (rest : List Byte) :
    Operand.ofBytes op.mode ((op.bytes ++ rest).getD 0 0) ((op.bytes ++ rest).getD 1 0) = op := by
  cases op <;> simp [Operand.ofBytes, Operand.mode, Operand.bytes]

theorem ofBytes_mode (m : Mode) (op1 op2 : Byte) : (Operand.ofBytes m op1 op2).mode = m := by
  cases m <;> rfl

theorem length_bytes (op : Operand) : op.bytes.length + 1 = op.mode.length := by
  cases op <;> rfl

theorem instr_view (k : Kind) (op : Operand) : (k.instr op).view = .inr (k, op) := by
  cases k <;> rfl

theorem view_instr {i : Instr} {k : Kind} {op : Operand} (h : i.view = .inr (k, op)) : i = k.instr op := by
  cases i <;> simp_all [Instr.view, Kind.instr] <;> obtain ⟨rfl, rfl⟩ := h <;> rfl

theorem view_undefined {i : Instr} {b : Byte} (h : i.view = .inl b) : i = .undefined b := by
  cases i <;> simp_all [Instr.view]

/-- Where the family tables give a mnemonic a mode, they give it an opcode byte, and the map of R97 holds that mnemonic
and mode at that byte. -/
theorem opcode_lookup (k : Kind) {m : Mode} (h : k.modes.contains m = true) :
    ∃ b e, k.opcode m = some b ∧ specTable.lookup b = some e ∧ e.kind = k ∧ e.mode = m := by
  have all : k.modes.all (fun m => match k.opcode m with
      | none => false
      | some b => match specTable.lookup b with
        | none => false
        | some e => e.kind == k && e.mode == m) = true := by
    cases k <;> decide
  have hm := List.all_eq_true.mp all m (List.contains_iff_mem.mp h)
  cases hb : k.opcode m with
  | none => simp [hb] at hm
  | some b =>
    cases he : specTable.lookup b with
    | none => simp [hb, he] at hm
    | some e =>
      simp [hb, he] at hm
      exact ⟨b, e, rfl, he, hm.1, hm.2⟩

end Sys2Proof
end

