-- ==== Sys2Proof/Laws/PerInstr.lean ====
section
/-! SUPPORT. One lemma per instruction: what its bytes are (spec/30_encoding.md R90, R91, R97). -/

namespace Sys2Proof.Laws.Encoding

/-- A well-formed instruction encodes to an opcode byte that the map gives its mnemonic and mode, and its operand bytes;
an undefined byte stands for itself. -/
def Statement (i : Instr) : Prop :=
  i.wf = true →
  match i.view with
  | .inl u => encode i = [u] ∧ undefinedOpcodes.contains u = true
  | .inr (k, op) => ∃ b e, encode i = b :: op.bytes ∧ specTable.lookup b = some e ∧ e.kind = k ∧ e.mode = op.mode

/-- Once for all mnemonics. -/
theorem of_kind {i : Instr} {k : Kind} {op : Operand} (h : i.view = .inr (k, op)) : Statement i := by
  intro hwf
  have hm : k.modes.contains op.mode = true := by simpa [Instr.wf, h] using hwf
  obtain ⟨b, e, hb, he, hk, hmode⟩ := opcode_lookup k hm
  simp only [h]
  exact ⟨b, e, by simp [encode, h, hb], he, hk, hmode⟩

theorem lda (op : Operand) : Statement (.lda op) := of_kind rfl
theorem ldx (op : Operand) : Statement (.ldx op) := of_kind rfl
theorem ldy (op : Operand) : Statement (.ldy op) := of_kind rfl
theorem sta (op : Operand) : Statement (.sta op) := of_kind rfl
theorem stx (op : Operand) : Statement (.stx op) := of_kind rfl
theorem sty (op : Operand) : Statement (.sty op) := of_kind rfl
theorem adc (op : Operand) : Statement (.adc op) := of_kind rfl
theorem sbc (op : Operand) : Statement (.sbc op) := of_kind rfl
theorem and (op : Operand) : Statement (.and op) := of_kind rfl
theorem ora (op : Operand) : Statement (.ora op) := of_kind rfl
theorem eor (op : Operand) : Statement (.eor op) := of_kind rfl
theorem inc (op : Operand) : Statement (.inc op) := of_kind rfl
theorem dec (op : Operand) : Statement (.dec op) := of_kind rfl
theorem inx (op : Operand) : Statement (.inx op) := of_kind rfl
theorem iny (op : Operand) : Statement (.iny op) := of_kind rfl
theorem dex (op : Operand) : Statement (.dex op) := of_kind rfl
theorem dey (op : Operand) : Statement (.dey op) := of_kind rfl
theorem cmp (op : Operand) : Statement (.cmp op) := of_kind rfl
theorem cpx (op : Operand) : Statement (.cpx op) := of_kind rfl
theorem cpy (op : Operand) : Statement (.cpy op) := of_kind rfl
theorem bit (op : Operand) : Statement (.bit op) := of_kind rfl
theorem jmp (op : Operand) : Statement (.jmp op) := of_kind rfl
theorem bcc (op : Operand) : Statement (.bcc op) := of_kind rfl
theorem bcs (op : Operand) : Statement (.bcs op) := of_kind rfl
theorem beq (op : Operand) : Statement (.beq op) := of_kind rfl
theorem bne (op : Operand) : Statement (.bne op) := of_kind rfl
theorem bmi (op : Operand) : Statement (.bmi op) := of_kind rfl
theorem bpl (op : Operand) : Statement (.bpl op) := of_kind rfl
theorem bvc (op : Operand) : Statement (.bvc op) := of_kind rfl
theorem bvs (op : Operand) : Statement (.bvs op) := of_kind rfl
theorem asl (op : Operand) : Statement (.asl op) := of_kind rfl
theorem lsr (op : Operand) : Statement (.lsr op) := of_kind rfl
theorem rol (op : Operand) : Statement (.rol op) := of_kind rfl
theorem ror (op : Operand) : Statement (.ror op) := of_kind rfl
theorem brk (op : Operand) : Statement (.brk op) := of_kind rfl
theorem rti (op : Operand) : Statement (.rti op) := of_kind rfl
theorem rts (op : Operand) : Statement (.rts op) := of_kind rfl
theorem jsr (op : Operand) : Statement (.jsr op) := of_kind rfl
theorem pha (op : Operand) : Statement (.pha op) := of_kind rfl
theorem pla (op : Operand) : Statement (.pla op) := of_kind rfl
theorem php (op : Operand) : Statement (.php op) := of_kind rfl
theorem plp (op : Operand) : Statement (.plp op) := of_kind rfl
theorem clc (op : Operand) : Statement (.clc op) := of_kind rfl
theorem sec (op : Operand) : Statement (.sec op) := of_kind rfl
theorem cli (op : Operand) : Statement (.cli op) := of_kind rfl
theorem sei (op : Operand) : Statement (.sei op) := of_kind rfl
theorem clv (op : Operand) : Statement (.clv op) := of_kind rfl
theorem cld (op : Operand) : Statement (.cld op) := of_kind rfl
theorem sed (op : Operand) : Statement (.sed op) := of_kind rfl
theorem tax (op : Operand) : Statement (.tax op) := of_kind rfl
theorem tay (op : Operand) : Statement (.tay op) := of_kind rfl
theorem txa (op : Operand) : Statement (.txa op) := of_kind rfl
theorem tya (op : Operand) : Statement (.tya op) := of_kind rfl
theorem tsx (op : Operand) : Statement (.tsx op) := of_kind rfl
theorem txs (op : Operand) : Statement (.txs op) := of_kind rfl
theorem nop (op : Operand) : Statement (.nop op) := of_kind rfl

theorem undefined (byte : Byte) : Statement (.undefined byte) := fun hwf => ⟨rfl, by simpa [Instr.wf, Instr.view] using hwf⟩

end Sys2Proof.Laws.Encoding
end

