-- ==== Sys2Proof/Machine/BusTrace.lean ====
section
/-! DEFINITION. The bus accesses of one step in the canonical order of spec/20_memory.md R77. The order of reads is the
spec's choice and shows in no state (D13), so the step itself does not record it; this is the history a model of a bus
that looks at accesses would take. -/

namespace Sys2Proof.Machine

/-- One bus access (R50). -/
inductive BusAccess where
  | read (addr : Word)
  | write (addr : Word) (v : Byte)
  deriving DecidableEq, Repr

/-- The behaviours that read a data byte (R84). -/
def readsData : Kind → Bool
  | .lda | .ldx | .ldy | .adc | .sbc | .and | .ora | .eor | .cmp | .cpx | .cpy | .bit | .inc | .dec => true
  | _ => false

/-- The byte a behaviour writes to its effective address, for those that write one (R84, R143 to R145, R170,
R171). -/
def storedByte (c : Config) (k : Kind) (op : Operand) (s : State) : Option Byte :=
  match k with
  | .sta => some s.a
  | .stx => some s.x
  | .sty => some s.y
  | .inc => match readOperand c op s with
    | .next m => some (m + 1)
    | _ => none
  | .dec => match readOperand c op s with
    | .next m => some (m - 1)
    | _ => none
  | _ => none

/-- The operand reads, `op1` then `op2`, as many as the mode has operand bytes. -/
def operandReads (m : Mode) (s : State) : List BusAccess :=
  ([.read (s.pc + 1), .read (s.pc + 2)] : List BusAccess).take (m.length - 1)

/-- The pointer reads: the two zero-page bytes of (Indirect,X) and (Indirect),Y, low then high, and the two target
bytes of `JMP (w)`. DESIGN CHOICE, log entry 11: under INDIRECT_SEMANTICS = source the spec does not determine which
pointer bytes are read (R71, R72, 91_not_in_source.md N9) and the step is refused, so none are listed. -/
def pointerReads (c : Config) (k : Kind) (op : Operand) (s : State) : List BusAccess :=
  match op with
  | .indx z =>
    match c.indirect with
    | .official => [.read (zext16 (z + s.x)), .read (zext16 (z + s.x + 1))]
    | .source => []
  | .indy z =>
    match c.indirect with
    | .official => [.read (zext16 z), .read (zext16 (z + 1))]
    | .source => []
  | .ind w =>
    match k, c.jmpIndirect with
    | .jmp, .nmosPageWrap => [.read w, .read (samePageNext w)]
    | .jmp, .linear => [.read w, .read (w + 1)]
    | _, _ => []
  | _ => []

/-- The data read at the effective address, for a behaviour that reads memory. -/
def dataReads (c : Config) (k : Kind) (op : Operand) (s : State) : List BusAccess :=
  match readsData k, address c .read op s with
  | true, .next a => [.read a]
  | _, _ => []

/-- The data write at the effective address, for a behaviour that writes memory; always the last access (R75). -/
def dataWrites (c : Config) (k : Kind) (op : Operand) (s : State) : List BusAccess :=
  match storedByte c k op s, address c .write op s with
  | some v, .next a => [.write a v]
  | _, _ => []

/-- The accesses of the next step: none in Idle-counting (R121), the opcode alone for a byte without an entry or
without a behaviour (R123, R124), and otherwise the order of R77. For a behaviour that fails or is refused, and for one
that stands in a mode its rule does not read through, the accesses are the model's (DESIGN CHOICE, log entry 11); the
spec's parameters have no such step. -/
def busTrace (c : Config) (s : State) : List BusAccess :=
  if 0 < s.rc then []
  else .read s.pc ::
    match c.table.lookup s.opcodeByte with
    | none => []
    | some e =>
      let op := Operand.ofBytes e.mode (s.read (s.pc + 1)) (s.read (s.pc + 2))
      if e.kind.implemented then
        operandReads e.mode s ++ pointerReads c e.kind op s ++ dataReads c e.kind op s ++ dataWrites c e.kind op s
      else []

/-- The bus contents after an access (R54). -/
def BusAccess.apply (m : Memory) : BusAccess → Memory
  | .read _ => m
  | .write addr v => Memory.write m addr.toNat v

end Sys2Proof.Machine
end

