-- ==== Sys2Proof/Machine/HostPort.lean ====
section
/-! DEFINITION. What the host sees and does (spec/60_exceptions.md R240 to R246, spec/70_reset_and_hazards.md R277): the
status a step returns beside the state it leaves, and the host's bus accesses between steps. -/

namespace Sys2Proof.Machine

/-- The numeric code of a failure (R240). -/
def Fault.code : Fault → Nat
  | .invalidOpcode _ => 1
  | .unsupportedInstruction _ => 2
  | .unsupportedAddressingMode _ _ => 3

/-- What `step()` returns (R128, R240); `refused` is the model's, for parameters whose behaviour the spec leaves out. -/
inductive StepStatus where
  | ok
  | failed (f : Fault)
  | refused (r : Refusal)
  deriving DecidableEq, Repr

/-- The status code (R240): 0 to 3; a refusal has none. -/
def StepStatus.code : StepStatus → Option Nat
  | .ok => some 0
  | .failed f => some f.code
  | .refused _ => none

/-- The status and the state after a step: a failing step leaves the state before it (R240, R246). -/
def observe (r : Exec) (s : State) : StepStatus × State :=
  match r with
  | .next t => (.ok, t)
  | .fault f => (.failed f, s)
  | .refused w => (.refused w, s)

/-- `step()` as the host calls it (R128). -/
def hostStep (s : State) : StepStatus × State := observe (step s) s

/-- `k` steps in a row, up to the first step that fails (R128). -/
def run : Nat → State → Exec
  | 0, s => .next s
  | k + 1, s => andThen (step s) (run k)

/-- What the host may do between two steps (R277, D25): step, or write a bus byte; reading and inspecting change
nothing. It has no move that writes a register. -/
inductive HostMove where
  | step
  | write (addr : Word) (v : Byte)
  deriving DecidableEq, Repr

/-- The state after one move of the host. -/
def hostAct (s : State) : HostMove → State
  | .step => (hostStep s).2
  | .write addr v => s.write addr v

end Sys2Proof.Machine
end

