-- ==== Sys2Proof/Safety.lean ====
section
/-! DEFINITION. The terms claims are stated in: the invariant of the block, the states that runs reach, and the end of a
run (spec/70_reset_and_hazards.md R281). -/

namespace Sys2Proof.Machine

/-- What holds of every state a run reaches: the bus contents are in canonical form, RC lies in 0 to 6 (R37), S is 0xFF
(R24), and U, B, D, I are 0 (R29 to R32). -/
structure State.Inv (s : State) : Prop where
  memWf  : Memory.wf s.mem = true
  rcMax  : s.rc ≤ 6
  spFull : s.sp = 0xFF
  clearU : s.flag .u = false
  clearB : s.flag .b = false
  clearD : s.flag .d = false
  clearI : s.flag .i = false

/-- The states of a run: construction on any bus contents, then steps and host writes in any order (R270, R277). -/
inductive Reachable : State → Prop
  | construct (bus : Memory) : Memory.wf bus = true → Reachable (construct Config.spec bus)
  | act (s : State) (m : HostMove) : Reachable s → Reachable (hostAct s m)

/-- A `JMP` to itself stands at PC (R281). -/
def State.selfJump (s : State) : Bool :=
  s.opcodeByte == 0x4C && s.read16 (s.pc + 1) == s.pc

/-- The step does not answer a next state. -/
def failing (r : Exec) : Bool :=
  match r with
  | .next _ => false
  | .fault _ => true
  | .refused _ => true

/-- The end of a run as R281 defines it: RC = 0 and a self-jump at PC, or a failing step. -/
def State.endOfRun (s : State) : Bool := (s.rc == 0 && s.selfJump) || failing (step s)

end Sys2Proof.Machine
end

