-- ==== Sys2Proof/Certificates/Slice0/Obligations.lean ====
section
/-! DEFINITION. The statements for the provers. First the terms they share: the forms of a mnemonic as the tables of
spec/41 to spec/47 list them (mode, opcode byte, base cycles), what an instruction leaves unchanged, and the readings of
single rules. -/

namespace Sys2Proof.Claims

open Sys2Proof.Machine

/-- The forms of a mnemonic: mode, opcode byte, base cycle count. -/
abbrev Forms := List (Mode × Byte × Nat)

/-! Load and store (R140 to R145) -/

def ldaForms : Forms :=
  [(.imm, 0xA9, 2), (.zp, 0xA5, 3), (.zpx, 0xB5, 4), (.abs, 0xAD, 4),
   (.absx, 0xBD, 4), (.absy, 0xB9, 4), (.indx, 0xA1, 6), (.indy, 0xB1, 5)]
def ldxForms : Forms :=
  [(.imm, 0xA2, 2), (.zp, 0xA6, 3), (.zpy, 0xB6, 4), (.abs, 0xAE, 4),
   (.absy, 0xBE, 4)]
def ldyForms : Forms :=
  [(.imm, 0xA0, 2), (.zp, 0xA4, 3), (.zpx, 0xB4, 4), (.abs, 0xAC, 4),
   (.absx, 0xBC, 4)]
def staForms : Forms :=
  [(.zp, 0x85, 3), (.zpx, 0x95, 4), (.abs, 0x8D, 4), (.absx, 0x9D, 5),
   (.absy, 0x99, 5), (.indx, 0x81, 6), (.indy, 0x91, 6)]
def stxForms : Forms :=
  [(.zp, 0x86, 3), (.zpy, 0x96, 4), (.abs, 0x8E, 4)]
def styForms : Forms :=
  [(.zp, 0x84, 3), (.zpx, 0x94, 4), (.abs, 0x8C, 4)]

/-! Arithmetic (R150, R151) -/

def adcForms : Forms :=
  [(.imm, 0x69, 2), (.zp, 0x65, 3), (.zpx, 0x75, 4), (.abs, 0x6D, 4),
   (.absx, 0x7D, 4), (.absy, 0x79, 4), (.indx, 0x61, 6), (.indy, 0x71, 5)]
def sbcForms : Forms :=
  [(.imm, 0xE9, 2), (.zp, 0xE5, 3), (.zpx, 0xF5, 4), (.abs, 0xED, 4),
   (.absx, 0xFD, 4), (.absy, 0xF9, 4), (.indx, 0xE1, 6), (.indy, 0xF1, 5)]

/-! Logical (R160 to R162) -/

def andForms : Forms :=
  [(.imm, 0x29, 2), (.zp, 0x25, 3), (.zpx, 0x35, 4), (.abs, 0x2D, 4),
   (.absx, 0x3D, 4), (.absy, 0x39, 4), (.indx, 0x21, 6), (.indy, 0x31, 5)]
def oraForms : Forms :=
  [(.imm, 0x09, 2), (.zp, 0x05, 3), (.zpx, 0x15, 4), (.abs, 0x0D, 4),
   (.absx, 0x1D, 4), (.absy, 0x19, 4), (.indx, 0x01, 6), (.indy, 0x11, 5)]
def eorForms : Forms :=
  [(.imm, 0x49, 2), (.zp, 0x45, 3), (.zpx, 0x55, 4), (.abs, 0x4D, 4),
   (.absx, 0x5D, 4), (.absy, 0x59, 4), (.indx, 0x41, 6), (.indy, 0x51, 5)]

/-! Increment and decrement (R170 to R175) -/

def incForms : Forms :=
  [(.zp, 0xE6, 5), (.zpx, 0xF6, 6), (.abs, 0xEE, 6), (.absx, 0xFE, 7)]
def decForms : Forms :=
  [(.zp, 0xC6, 5), (.zpx, 0xD6, 6), (.abs, 0xCE, 6), (.absx, 0xDE, 7)]
def inxForms : Forms :=
  [(.imp, 0xE8, 2)]
def inyForms : Forms :=
  [(.imp, 0xC8, 2)]
def dexForms : Forms :=
  [(.imp, 0xCA, 2)]
def deyForms : Forms :=
  [(.imp, 0x88, 2)]

/-! Compare and bit test (R180 to R183) -/

def cmpForms : Forms :=
  [(.imm, 0xC9, 2), (.zp, 0xC5, 3), (.zpx, 0xD5, 4), (.abs, 0xCD, 4),
   (.absx, 0xDD, 4), (.absy, 0xD9, 4), (.indx, 0xC1, 6), (.indy, 0xD1, 5)]
def cpxForms : Forms :=
  [(.imm, 0xE0, 2), (.zp, 0xE4, 3), (.abs, 0xEC, 4)]
def cpyForms : Forms :=
  [(.imm, 0xC0, 2), (.zp, 0xC4, 3), (.abs, 0xCC, 4)]
def bitForms : Forms :=
  [(.zp, 0x24, 3), (.abs, 0x2C, 4)]

/-! Jump and branches (R190 to R199) -/

def jmpForms : Forms :=
  [(.abs, 0x4C, 3), (.ind, 0x6C, 5)]
def bccForms : Forms :=
  [(.rel, 0x90, 2)]
def bcsForms : Forms :=
  [(.rel, 0xB0, 2)]
def beqForms : Forms :=
  [(.rel, 0xF0, 2)]
def bneForms : Forms :=
  [(.rel, 0xD0, 2)]
def bmiForms : Forms :=
  [(.rel, 0x30, 2)]
def bplForms : Forms :=
  [(.rel, 0x10, 2)]
def bvcForms : Forms :=
  [(.rel, 0x50, 2)]
def bvsForms : Forms :=
  [(.rel, 0x70, 2)]

/-- The unimplemented shifts, rotates, calls and returns (R211 to R218). -/
def shiftAndCallForms : List (Kind × Forms) :=
  [(.asl, [(.acc, 0x0A, 2), (.zp, 0x06, 5), (.zpx, 0x16, 6), (.abs, 0x0E, 6),
      (.absx, 0x1E, 7)]),
   (.lsr, [(.acc, 0x4A, 2), (.zp, 0x46, 5), (.zpx, 0x56, 6), (.abs, 0x4E, 6),
      (.absx, 0x5E, 7)]),
   (.rol, [(.acc, 0x2A, 2), (.zp, 0x26, 5), (.zpx, 0x36, 6), (.abs, 0x2E, 6),
      (.absx, 0x3E, 7)]),
   (.ror, [(.acc, 0x6A, 2), (.zp, 0x66, 5), (.zpx, 0x76, 6), (.abs, 0x6E, 6),
      (.absx, 0x7E, 7)]),
   (.brk, [(.imp, 0x00, 7)]),
   (.rti, [(.imp, 0x40, 6)]),
   (.rts, [(.imp, 0x60, 6)]),
   (.jsr, [(.abs, 0x20, 6)])]

/-- The unimplemented stack and flag instructions (R219 to R229). -/
def stackAndFlagForms : List (Kind × Forms) :=
  [(.pha, [(.imp, 0x48, 3)]),
   (.pla, [(.imp, 0x68, 4)]),
   (.php, [(.imp, 0x08, 3)]),
   (.plp, [(.imp, 0x28, 4)]),
   (.clc, [(.imp, 0x18, 2)]),
   (.sec, [(.imp, 0x38, 2)]),
   (.cli, [(.imp, 0x58, 2)]),
   (.sei, [(.imp, 0x78, 2)]),
   (.clv, [(.imp, 0xB8, 2)]),
   (.cld, [(.imp, 0xD8, 2)]),
   (.sed, [(.imp, 0xF8, 2)])]

/-- The unimplemented transfers and NOP (R230 to R236). -/
def transferAndNopForms : List (Kind × Forms) :=
  [(.tax, [(.imp, 0xAA, 2)]),
   (.tay, [(.imp, 0xA8, 2)]),
   (.txa, [(.imp, 0x8A, 2)]),
   (.tya, [(.imp, 0x98, 2)]),
   (.tsx, [(.imp, 0xBA, 2)]),
   (.txs, [(.imp, 0x9A, 2)]),
   (.nop, [(.imp, 0xEA, 2)])]

/-- The table gives a mnemonic exactly these opcode bytes, modes and cycle counts, each with its mode's length. -/
def Encodes (k : Kind) (l : Forms) : Prop :=
  ∀ (b : Byte) (e : Entry),
    specTable.lookup b = some e ∧ e.kind = k ↔
      e.kind = k ∧ e.length = e.mode.length ∧ (e.mode, b, e.cycles) ∈ l

/-- The operand is in one of the modes listed. -/
def InForms (l : Forms) (op : Operand) : Prop := op.mode ∈ l.map Prod.fst

/-- The flags N and Z that `SetNZ(v)` leaves (R10). -/
def nz (v : Byte) : List (Flag × Bool) := [(.n, v.getLsbD 7), (.z, decide (v = 0))]

/-- The registers and flags after an instruction: A, X and Y as given, PC as given modulo 65536, the listed flags as
listed, and S, RC and every other flag as before. -/
structure After (s t : State) (a x y : Byte) (pc : Int) (flags : List (Flag × Bool)) : Prop where
  a     : t.a = a
  x     : t.x = x
  y     : t.y = y
  sp    : t.sp = s.sp
  rc    : t.rc = s.rc
  pc    : t.pc = BitVec.ofInt 16 pc
  flags : ∀ f, t.flag f = (flags.lookup f).getD (s.flag f)

/-- Every byte of memory reads as before. -/
def MemKept (s t : State) : Prop := ∀ b : Word, t.read b = s.read b

/-- One byte is stored and every other byte reads as before. -/
def Stored (s t : State) (addr : Word) (v : Byte) : Prop := t.read addr = v ∧ ∀ b : Word, b ≠ addr → t.read b = s.read b

/-- PC0 + len, before it is taken modulo 65536. -/
def nextPc (s : State) (op : Operand) : Int := s.pc.toNat + op.mode.length

/-- Under `INDIRECT_SEMANTICS = source` the (Indirect,X) and (Indirect),Y forms of a behaviour are refused. -/
def RefusedInVariant (k : Kind) : Prop :=
  ∀ (c : Config) (op : Operand) (s : State), c.indirect = .source → op.mode = .indx ∨ op.mode = .indy →
    execWith c (k.instr op) s = .refused (.indirectVariant op.mode)

/-- The state of a next outcome is changed by `g`; failures and refusals stay. -/
def onNext (g : State → State) (r : Exec) : Exec :=
  match r with
  | .next t => .next (g t)
  | .fault f => .fault f
  | .refused w => .refused w

/-- Change any of the bits U, B, D, I of P, and no other (0x3C has exactly those four bits). -/
def flipInert (q : Byte) (s : State) : State := { s with p := s.p ^^^ (q &&& 0x3C) }

/-- The state a branch leads to: PC alone changes, to PC0 + 2, and the signed offset further when taken (R191). -/
def branchTo (s : State) (off : Byte) (taken : Bool) : State :=
  { s with pc := BitVec.ofInt 16 ((s.pc.toNat : Int) + 2 + if taken then off.toInt else 0) }

/-- The step as R130 writes it, from the table entry of the opcode byte. -/
def stepByRule (c : Config) (s : State) : Exec :=
  if s.rc > 0 then .next { s with rc := s.rc - 1 }
  else
    match c.table.lookup (s.read s.pc) with
    | none => .fault (.invalidOpcode (s.read s.pc))
    | some e =>
      if e.kind ∈ [Kind.lda, .ldx, .ldy, .sta, .stx, .sty, .adc, .sbc, .and, .ora, .eor, .inc, .dec, .inx, .iny, .dex,
          .dey, .cmp, .cpx, .cpy, .bit, .jmp, .bcc, .bcs, .beq, .bne, .bmi, .bpl, .bvc, .bvs] then
        onNext (fun t => { t with rc := e.cycles - 1 })
          (execWith c (e.kind.instr (Operand.ofBytes e.mode (s.read (s.pc + 1)) (s.read (s.pc + 2)))) s)
      else .fault (.unsupportedInstruction e.kind)

/-- Run whole instructions from a fetch-dispatch boundary, each followed by its idle steps; the state reached and the
number of steps their cycle counts add up to. -/
def runInstrs : Nat → State → Option (State × Nat)
  | 0, s => some (s, 0)
  | n + 1, s =>
    match step s with
    | .next t => (runInstrs n { t with rc := 0 }).map fun r => (r.1, cyclesOf specTable (s.read s.pc) + r.2)
    | .fault _ => none
    | .refused _ => none

/-- An unimplemented mnemonic has these forms, and whatever the state and the operand it fails by name; so does the step
that fetches one of its bytes, and the state the host then sees is the state before it. -/
def NeverRuns (k : Kind) (l : Forms) : Prop :=
  Encodes k l ∧
  (∀ (op : Operand) (s : State), exec (k.instr op) s = .fault (.unsupportedInstruction k)) ∧
  ∀ s : State, s.rc = 0 → s.read s.pc ∈ l.map (fun f => f.2.1) →
    step s = .fault (.unsupportedInstruction k) ∧ hostStep s = (.failed (.unsupportedInstruction k), s)

end Sys2Proof.Claims

open Sys2Proof Sys2Proof.Machine Sys2Proof.Claims

/-- The examples of the syntax table of R102 decode to what they spell. -/
def Obligations.WordsOfTheAddressingModesDecode : Prop :=
  decode [0xE8] = .ok (.inx .imp, []) ∧
  decode [0x0A] = .ok (.asl .acc, []) ∧
  decode [0xA9, 0x80] = .ok (.lda (.imm 0x80), []) ∧
  decode [0xA5, 0x42] = .ok (.lda (.zp 0x42), []) ∧
  decode [0xB5, 0x42] = .ok (.lda (.zpx 0x42), []) ∧
  decode [0xB6, 0x42] = .ok (.ldx (.zpy 0x42), []) ∧
  decode [0xAD, 0x34, 0x12] = .ok (.lda (.abs 0x1234), []) ∧
  decode [0xBD, 0x34, 0x12] = .ok (.lda (.absx 0x1234), []) ∧
  decode [0xB9, 0x34, 0x12] = .ok (.lda (.absy 0x1234), []) ∧
  decode [0x6C, 0x34, 0x12] = .ok (.jmp (.ind 0x1234), []) ∧
  decode [0xA1, 0x20] = .ok (.lda (.indx 0x20), []) ∧
  decode [0xB1, 0x20] = .ok (.lda (.indy 0x20), []) ∧
  decode [0xF0, 0x05] = .ok (.beq (.rel 0x05), [])

/-- Decode and encode agree: no operand bit is dropped (R90, R91, R97). -/
def Obligations.DecodeUndoesEncode : Prop :=
  ∀ (i : Instr) (rest : List Byte), i.wf = true → decode (encode i ++ rest) = .ok (i, rest)

/-- The other direction of the round trip: the decoder reads no bit it does not account for. -/
def Obligations.EncodeUndoesDecode : Prop :=
  ∀ (bytes : List Byte) (i : Instr) (rest : List Byte),
    decode bytes = .ok (i, rest) → i.wf = true ∧ encode i ++ rest = bytes

/-- The per-instruction family Encoding, for all instructions. -/
def Obligations.WellFormedInstructionsHaveBytes : Prop :=
  ∀ i : Instr, Sys2Proof.Laws.Encoding.Statement i

/-- The lookup is total (R93), so a fetch never lacks an instruction. -/
def Obligations.EveryFetchDecodes : Prop :=
  ∀ s : State, ∃ i rest,
    decode [s.read s.pc, s.read (s.pc + 1), s.read (s.pc + 2)] = .ok (i, rest) ∧
    i.wf = true ∧ i = s.fetchInstr specTable

/-- R96 and the counts of R98 and R99. -/
def Obligations.SpecTableIsWellFormed : Prop :=
  Config.spec.wf = true ∧ specTable.length = 256 ∧
  (specTable.filter fun c => c.any fun e => e.kind.implemented).length = 109 ∧
  (specTable.filter fun c => c.any fun e => !e.kind.implemented).length = 42 ∧
  (specTable.filter fun c => c.isNone).length = 105

/-- The flag operations of R35. -/
def Obligations.FlagWritesTouchOneBit : Prop :=
  (∀ (s : State) (f g : Flag) (b : Bool), (s.putFlag f b).flag g = if g = f then b else s.flag g) ∧
  (∀ (s : State) (v : Byte) (g : Flag),
    (s.setNegative v).flag g = (if g = .n then v.getLsbD 7 else s.flag g) ∧
    (s.setZero v).flag g = (if g = .z then decide (v = 0) else s.flag g)) ∧
  (∀ (s : State) (b : Bool) (g : Flag),
    (s.setCarry b).flag g = (if g = .c then b else s.flag g) ∧
    (s.setOverflow b).flag g = (if g = .v then b else s.flag g)) ∧
  (∀ s : State, s.getCarry = s.p.getLsbD 0) ∧
  ∀ (s : State) (f : Flag) (b : Bool), s.putFlag f b = { s with p := (s.putFlag f b).p }

/-- The bus of R54: last value written, or the launch contents. -/
def Obligations.BusIsAPlainMemory : Prop :=
  (∀ (s : State) (addr : Word) (v : Byte), Memory.wf s.mem = true →
    Stored s (s.write addr v) addr v ∧ s.write addr v = { s with mem := (s.write addr v).mem }) ∧
  ∀ contents : Word → Byte, ∃ m : Memory, Memory.wf m = true ∧ ∀ a : Word, Memory.read m a.toNat = contents a

/-- The canonical form is the model's representation (log entry 1 names the byte an unlisted address reads as). -/
def Obligations.EqualReadsMeanEqualMemories : Prop :=
  (∀ (m : Memory) (a : Word) (v : Byte), Memory.wf m = true → Memory.wf (Memory.write m a.toNat v) = true) ∧
  ∀ m n : Memory, Memory.wf m = true → Memory.wf n = true →
    (∀ a : Word, Memory.read m a.toNat = Memory.read n a.toNat) → m = n

/-- R52 and R53, the wraps of D6 and of zero page included. -/
def Obligations.WordReadsAreLittleEndianAndWrap : Prop :=
  (∀ (s : State) (a : Word), (s.read16 a).toNat =
    (Memory.read s.mem ((a.toNat + 1) % 65536)).toNat * 256 + (Memory.read s.mem a.toNat).toNat) ∧
  ∀ (s : State) (z : Byte), (s.read16zp z).toNat =
    (Memory.read s.mem ((z.toNat + 1) % 256)).toNat * 256 + (Memory.read s.mem z.toNat).toNat

/-- The effective addresses of R62 to R67, R69 and R70, in both directions (R75). -/
def Obligations.EffectiveAddressOfEachMode : Prop :=
  ∀ (c : Config) (dir : Direction) (z : Byte) (w : Word) (s : State), c.indirect = .official →
    (∃ a, address c dir (.zp z) s = .next a ∧ a.toNat = z.toNat) ∧
    (∃ a, address c dir (.zpx z) s = .next a ∧ a.toNat = (z.toNat + s.x.toNat) % 256) ∧
    (∃ a, address c dir (.zpy z) s = .next a ∧ a.toNat = (z.toNat + s.y.toNat) % 256) ∧
    (∃ a, address c dir (.abs w) s = .next a ∧ a = w) ∧
    (∃ a, address c dir (.absx w) s = .next a ∧ a.toNat = (w.toNat + s.x.toNat) % 65536) ∧
    (∃ a, address c dir (.absy w) s = .next a ∧ a.toNat = (w.toNat + s.y.toNat) % 65536) ∧
    (∃ a, address c dir (.indx z) s = .next a ∧
      a.toNat = (Memory.read s.mem ((z.toNat + s.x.toNat + 1) % 256)).toNat * 256 +
        (Memory.read s.mem ((z.toNat + s.x.toNat) % 256)).toNat) ∧
    (∃ a, address c dir (.indy z) s = .next a ∧
      a.toNat = ((Memory.read s.mem ((z.toNat + 1) % 256)).toNat * 256 +
        (Memory.read s.mem z.toNat).toNat + s.y.toNat) % 65536)

/-- The resolver operations (R61, R68, R73, R74, R75); the write is the last access of the canonical order. -/
def Obligations.ResolverReadsAndFailures : Prop :=
  (∀ (c : Config) (v u : Byte) (s : State),
    readOperand c (.imm v) s = .next v ∧
    writeOperand c (.imm v) u s = .fault (.unsupportedAddressingMode .imm .write)) ∧
  (∀ (c : Config) (op : Operand) (v : Byte) (s : State), c.indirect = .official →
    op.mode ∈ [Mode.zp, .zpx, .zpy, .abs, .absx, .absy, .indx, .indy] →
    ∃ a, (∀ dir, address c dir op s = .next a) ∧ readOperand c op s = .next (s.read a) ∧
      writeOperand c op v s = .next { s with mem := Memory.write s.mem a.toNat v }) ∧
  (∀ (c : Config) (op : Operand) (v : Byte) (s : State), op.mode ∈ [Mode.imp, .acc, .rel, .ind] →
    readOperand c op s = .fault (.unsupportedAddressingMode op.mode .read) ∧
    writeOperand c op v s = .fault (.unsupportedAddressingMode op.mode .write)) ∧
  ∀ (c : Config) (s : State), ∃ reads : List Word,
    busTrace c s = reads.map .read ∨ ∃ addr v, busTrace c s = reads.map .read ++ [.write addr v]

/-- R60: the operand bytes, which depend on PC0, are in the operand; nothing else is read. -/
def Obligations.ResolverReadsOnlyBusAndIndexes : Prop :=
  ∀ (c : Config) (dir : Direction) (op : Operand) (s t : State),
    t.mem = s.mem → t.x = s.x → t.y = s.y →
    address c dir op t = address c dir op s ∧ readOperand c op t = readOperand c op s

/-- R140 to R142: results, flags, frame and completion of the loads. -/
def Obligations.LoadsWriteTheirRegisterAndNZ : Prop :=
  Encodes .lda ldaForms ∧ Encodes .ldx ldxForms ∧ Encodes .ldy ldyForms ∧ RefusedInVariant .lda ∧
  ∀ (op : Operand) (s : State),
    (InForms ldaForms op → ∃ v t, readOperand Config.spec op s = .next v ∧ exec (.lda op) s = .next t ∧
      After s t v s.x s.y (nextPc s op) (nz v) ∧ MemKept s t) ∧
    (InForms ldxForms op → ∃ v t, readOperand Config.spec op s = .next v ∧ exec (.ldx op) s = .next t ∧
      After s t s.a v s.y (nextPc s op) (nz v) ∧ MemKept s t) ∧
    (InForms ldyForms op → ∃ v t, readOperand Config.spec op s = .next v ∧ exec (.ldy op) s = .next t ∧
      After s t s.a s.x v (nextPc s op) (nz v) ∧ MemKept s t)

/-- R143 to R145: stored byte, address, frame and completion of the stores. -/
def Obligations.StoresWriteOneByte : Prop :=
  Encodes .sta staForms ∧ Encodes .stx stxForms ∧ Encodes .sty styForms ∧ RefusedInVariant .sta ∧
  (∀ (v : Byte) (s : State), exec (.sta (.imm v)) s = .fault (.unsupportedAddressingMode .imm .write)) ∧
  ∀ (op : Operand) (s : State), Memory.wf s.mem = true →
    (InForms staForms op → ∃ a t, address Config.spec .write op s = .next a ∧ exec (.sta op) s = .next t ∧
      After s t s.a s.x s.y (nextPc s op) [] ∧ Stored s t a s.a) ∧
    (InForms stxForms op → ∃ a t, address Config.spec .write op s = .next a ∧ exec (.stx op) s = .next t ∧
      After s t s.a s.x s.y (nextPc s op) [] ∧ Stored s t a s.x) ∧
    (InForms styForms op → ∃ a t, address Config.spec .write op s = .next a ∧ exec (.sty op) s = .next t ∧
      After s t s.a s.x s.y (nextPc s op) [] ∧ Stored s t a s.y)

/-- The round trip of R76, the load resolving to the same address in the state after the store. -/
def Obligations.StoreThenLoadReturnsTheValue : Prop :=
  ∀ (op op' : Operand) (s : State) (a : Word), Memory.wf s.mem = true →
    InForms staForms op → address Config.spec .write op s = .next a →
    ∃ t, exec (.sta op) s = .next t ∧
      (op'.mode ≠ .imm → address Config.spec .read op' t = .next a →
        ∃ u, exec (.lda op') t = .next u ∧ u.a = s.a)

/-- R150: result, flags, frame and completion of ADC. -/
def Obligations.AddWithCarryResult : Prop :=
  Encodes .adc adcForms ∧ RefusedInVariant .adc ∧
  ∀ (op : Operand) (s : State), InForms adcForms op →
    ∃ m t, readOperand Config.spec op s = .next m ∧ exec (.adc op) s = .next t ∧ MemKept s t ∧
      ∀ sum r, sum = s.a.toNat + m.toNat + (s.p.getLsbD 0).toNat → r = BitVec.ofNat 8 sum →
        After s t r s.x s.y (nextPc s op)
          [(.c, decide (sum > 255)), (.v, (~~~(s.a ^^^ m) &&& (s.a ^^^ r)).getLsbD 7),
           (.n, r.getLsbD 7), (.z, decide (r = 0))]

/-- R151: result, flags, frame and completion of SBC. -/
def Obligations.SubtractWithCarryResult : Prop :=
  Encodes .sbc sbcForms ∧ RefusedInVariant .sbc ∧
  ∀ (op : Operand) (s : State), InForms sbcForms op →
    ∃ m t, readOperand Config.spec op s = .next m ∧ exec (.sbc op) s = .next t ∧ MemKept s t ∧
      ∀ (diff : Int) (r : Byte), diff = s.a.toNat - m.toNat - (1 - (s.p.getLsbD 0).toNat) → r = BitVec.ofInt 8 diff →
        After s t r s.x s.y (nextPc s op)
          [(.c, decide (diff ≥ 0)), (.v, ((s.a ^^^ m) &&& (s.a ^^^ r)).getLsbD 7),
           (.n, r.getLsbD 7), (.z, decide (r = 0))]

/-- The overflow law of R152, over all states and forms. -/
def Obligations.OverflowIsSignedOverflow : Prop :=
  ∀ (op : Operand) (s : State), InForms adcForms op →
    ∃ m t u, readOperand Config.spec op s = .next m ∧ exec (.adc op) s = .next t ∧ exec (.sbc op) s = .next u ∧
      (t.flag .v = true ↔
        ¬ (-128 ≤ s.a.toInt + m.toInt + (s.flag .c).toNat ∧ s.a.toInt + m.toInt + (s.flag .c).toNat ≤ 127)) ∧
      (u.flag .v = true ↔
        ¬ (-128 ≤ s.a.toInt - m.toInt - (1 - (s.flag .c).toNat) ∧
          s.a.toInt - m.toInt - (1 - (s.flag .c).toNat) ≤ 127))

/-- R153. -/
def Obligations.SubtractIsAddOfComplement : Prop :=
  (∀ (m : Byte) (s : State), exec (.sbc (.imm m)) s = exec (.adc (.imm (~~~m))) s) ∧
  ∀ (op : Operand) (s : State), InForms adcForms op →
    ∃ m t u w, readOperand Config.spec op s = .next m ∧ exec (.adc op) s = .next t ∧ exec (.sbc op) s = .next u ∧
      exec (.adc (.imm (~~~m))) s = .next w ∧ u.a = w.a ∧ u.p = w.p ∧
      (t.flag .c = true ↔ 256 ≤ s.a.toNat + m.toNat + (s.flag .c).toNat) ∧
      (u.flag .c = true ↔ m.toNat + (1 - (s.flag .c).toNat) ≤ s.a.toNat)

/-- R160 to R162; the three have the same eight modes. -/
def Obligations.LogicalResults : Prop :=
  Encodes .and andForms ∧ Encodes .ora oraForms ∧ Encodes .eor eorForms ∧
  RefusedInVariant .and ∧ RefusedInVariant .ora ∧ RefusedInVariant .eor ∧
  ∀ (op : Operand) (s : State), InForms andForms op →
    ∃ m t u w, readOperand Config.spec op s = .next m ∧ exec (.and op) s = .next t ∧ exec (.ora op) s = .next u ∧
      exec (.eor op) s = .next w ∧ MemKept s t ∧ MemKept s u ∧ MemKept s w ∧
      After s t t.a s.x s.y (nextPc s op) (nz t.a) ∧
      After s u u.a s.x s.y (nextPc s op) (nz u.a) ∧
      After s w w.a s.x s.y (nextPc s op) (nz w.a) ∧
      ∀ k < 8,
        t.a.getLsbD k = (s.a.getLsbD k && m.getLsbD k) ∧
        u.a.getLsbD k = (s.a.getLsbD k || m.getLsbD k) ∧
        w.a.getLsbD k = (s.a.getLsbD k != m.getLsbD k)

/-- R170 and R171, which have the same four modes. -/
def Obligations.MemoryIncrementAndDecrement : Prop :=
  Encodes .inc incForms ∧ Encodes .dec decForms ∧
  (∀ (v : Byte) (s : State),
    exec (.inc (.imm v)) s = .fault (.unsupportedAddressingMode .imm .write) ∧
    exec (.dec (.imm v)) s = .fault (.unsupportedAddressingMode .imm .write)) ∧
  (∀ (op : Operand) (s : State), op.mode ∈ [Mode.ind, .imp, .acc, .rel] →
    exec (.inc op) s = .fault (.unsupportedAddressingMode op.mode .read) ∧
    exec (.dec op) s = .fault (.unsupportedAddressingMode op.mode .read)) ∧
  ∀ (op : Operand) (s : State), Memory.wf s.mem = true → InForms incForms op →
    ∃ a t u up down, address Config.spec .write op s = .next a ∧
      exec (.inc op) s = .next t ∧ exec (.dec op) s = .next u ∧
      up = BitVec.ofNat 8 ((s.read a).toNat + 1) ∧ down = BitVec.ofInt 8 ((s.read a).toNat - 1) ∧
      Stored s t a up ∧ After s t s.a s.x s.y (nextPc s op) (nz up) ∧
      Stored s u a down ∧ After s u s.a s.x s.y (nextPc s op) (nz down)

/-- R172 to R175. -/
def Obligations.RegisterIncrementAndDecrement : Prop :=
  Encodes .inx inxForms ∧ Encodes .iny inyForms ∧ Encodes .dex dexForms ∧ Encodes .dey deyForms ∧
  ∀ s : State, ∃ t u v w,
    exec (.inx .imp) s = .next t ∧ exec (.iny .imp) s = .next u ∧
    exec (.dex .imp) s = .next v ∧ exec (.dey .imp) s = .next w ∧
    MemKept s t ∧ MemKept s u ∧ MemKept s v ∧ MemKept s w ∧
    After s t s.a t.x s.y (s.pc.toNat + 1) (nz t.x) ∧ t.x.toNat = (s.x.toNat + 1) % 256 ∧
    After s u s.a s.x u.y (s.pc.toNat + 1) (nz u.y) ∧ u.y.toNat = (s.y.toNat + 1) % 256 ∧
    After s v s.a v.x s.y (s.pc.toNat + 1) (nz v.x) ∧ v.x.toNat = (s.x.toNat + 255) % 256 ∧
    After s w s.a s.x w.y (s.pc.toNat + 1) (nz w.y) ∧ w.y.toNat = (s.y.toNat + 255) % 256

/-- R180 to R182. -/
def Obligations.CompareFlags : Prop :=
  Encodes .cmp cmpForms ∧ Encodes .cpx cpxForms ∧ Encodes .cpy cpyForms ∧ RefusedInVariant .cmp ∧
  ∀ (op : Operand) (s : State),
    (InForms cmpForms op → ∃ m t, readOperand Config.spec op s = .next m ∧ exec (.cmp op) s = .next t ∧ MemKept s t ∧
      ∀ r : Byte, r = BitVec.ofInt 8 (s.a.toNat - m.toNat) → After s t s.a s.x s.y (nextPc s op)
        [(.n, r.getLsbD 7), (.z, decide (r = 0)), (.c, decide (m.toNat ≤ s.a.toNat))]) ∧
    (InForms cpxForms op → ∃ m t, readOperand Config.spec op s = .next m ∧ exec (.cpx op) s = .next t ∧ MemKept s t ∧
      ∀ r : Byte, r = BitVec.ofInt 8 (s.x.toNat - m.toNat) → After s t s.a s.x s.y (nextPc s op)
        [(.n, r.getLsbD 7), (.z, decide (r = 0)), (.c, decide (m.toNat ≤ s.x.toNat))]) ∧
    (InForms cpyForms op → ∃ m t, readOperand Config.spec op s = .next m ∧ exec (.cpy op) s = .next t ∧ MemKept s t ∧
      ∀ r : Byte, r = BitVec.ofInt 8 (s.y.toNat - m.toNat) → After s t s.a s.x s.y (nextPc s op)
        [(.n, r.getLsbD 7), (.z, decide (r = 0)), (.c, decide (m.toNat ≤ s.y.toNat))])

/-- R183. -/
def Obligations.BitTestFlags : Prop :=
  Encodes .bit bitForms ∧
  ∀ (op : Operand) (s : State), InForms bitForms op →
    ∃ m t, readOperand Config.spec op s = .next m ∧ exec (.bit op) s = .next t ∧ MemKept s t ∧
      After s t s.a s.x s.y (nextPc s op)
        [(.n, m.getLsbD 7), (.v, m.getLsbD 6), (.z, decide (s.a &&& m = 0))]

/-- R190, for each value of JMP_INDIRECT; no length is added. -/
def Obligations.JumpTargets : Prop :=
  Encodes .jmp jmpForms ∧
  (∀ (c : Config) (w : Word) (s : State),
    execWith c (.jmp (.abs w)) s = .next { s with pc := w } ∧
    ∃ target : Word, execWith c (.jmp (.ind w)) s = .next { s with pc := target } ∧
      (c.jmpIndirect = .nmosPageWrap → target.toNat =
        (Memory.read s.mem (w.toNat / 256 * 256 + (w.toNat + 1) % 256)).toNat * 256 +
          (Memory.read s.mem w.toNat).toNat) ∧
      (c.jmpIndirect = .linear → target.toNat =
        (Memory.read s.mem ((w.toNat + 1) % 65536)).toNat * 256 + (Memory.read s.mem w.toNat).toNat) ∧
      (c.jmpIndirect = .literal → target = w)) ∧
  Config.spec.jmpIndirect = .nmosPageWrap ∧
  ∀ (w : Word) (s : State),
    exec (.jmp (.abs w)) s = execWith Config.spec (.jmp (.abs w)) s ∧
    exec (.jmp (.ind w)) s = execWith Config.spec (.jmp (.ind w)) s

/-- R191 to R199; `branchTo` names the two states a branch can lead to. -/
def Obligations.BranchTargets : Prop :=
  Encodes .bcc bccForms ∧ Encodes .bcs bcsForms ∧ Encodes .beq beqForms ∧ Encodes .bne bneForms ∧
  Encodes .bmi bmiForms ∧ Encodes .bpl bplForms ∧ Encodes .bvc bvcForms ∧ Encodes .bvs bvsForms ∧
  ∀ (off : Byte) (s : State),
    exec (.bcc (.rel off)) s = .next (branchTo s off (s.p.getLsbD 0 == false)) ∧
    exec (.bcs (.rel off)) s = .next (branchTo s off (s.p.getLsbD 0 == true)) ∧
    exec (.beq (.rel off)) s = .next (branchTo s off (s.p.getLsbD 1 == true)) ∧
    exec (.bne (.rel off)) s = .next (branchTo s off (s.p.getLsbD 1 == false)) ∧
    exec (.bmi (.rel off)) s = .next (branchTo s off (s.p.getLsbD 7 == true)) ∧
    exec (.bpl (.rel off)) s = .next (branchTo s off (s.p.getLsbD 7 == false)) ∧
    exec (.bvc (.rel off)) s = .next (branchTo s off (s.p.getLsbD 6 == false)) ∧
    exec (.bvs (.rel off)) s = .next (branchTo s off (s.p.getLsbD 6 == true))

/-- No implemented instruction stops on ordinary data. -/
def Obligations.EveryImplementedInstructionCompletes : Prop :=
  ∀ (k : Kind) (op : Operand), k.implemented = true → (k.instr op).wf = true →
    (∀ s, ∃ t, exec (k.instr op) s = .next t) ∧
    ∀ s, s.rc = 0 → s.fetchInstr specTable = k.instr op → ∃ t, step s = .next t

/-- Rules R211 to R218: a named failure, and the state before it kept. -/
def Obligations.ShiftsAndCallsNeverRun : Prop :=
  ∀ p ∈ shiftAndCallForms, NeverRuns p.1 p.2

/-- Rules R219 to R229: a named failure, and the state before it kept. -/
def Obligations.StackAndFlagInstructionsNeverRun : Prop :=
  ∀ p ∈ stackAndFlagForms, NeverRuns p.1 p.2

/-- Rules R230 to R236: a named failure, and the state before it kept. -/
def Obligations.TransfersAndNopNeverRun : Prop :=
  ∀ p ∈ transferAndNopForms, NeverRuns p.1 p.2

/-- R98, R123, R241. -/
def Obligations.UndefinedBytesFail : Prop :=
  (∀ b : Byte, specTable.lookup b = none ↔ b ∈ undefinedOpcodes) ∧
  (∀ (b : Byte) (s : State), exec (.undefined b) s = .fault (.invalidOpcode b)) ∧
  ∀ s : State, s.rc = 0 → specTable.lookup (s.read s.pc) = none →
    step s = .fault (.invalidOpcode (s.read s.pc)) ∧
    hostStep s = (.failed (.invalidOpcode (s.read s.pc)), s)

/-- R243; the last clause says it is unreachable with the spec's table. -/
def Obligations.UnsupportedModesNameTheFirstDirection : Prop :=
  ∀ (c : Config) (op : Operand) (s : State),
    (∀ k ∈ [Kind.lda, .ldx, .ldy, .adc, .sbc, .and, .ora, .eor, .cmp, .cpx, .cpy, .bit, .inc, .dec],
      op.mode ∈ [Mode.imp, .acc, .rel, .ind] →
      execWith c (k.instr op) s = .fault (.unsupportedAddressingMode op.mode .read)) ∧
    (∀ k ∈ [Kind.sta, .stx, .sty], op.mode ∈ [Mode.imm, .imp, .acc, .rel, .ind] →
      execWith c (k.instr op) s = .fault (.unsupportedAddressingMode op.mode .write)) ∧
    (∀ k ∈ [Kind.inc, .dec], op.mode = .imm →
      execWith c (k.instr op) s = .fault (.unsupportedAddressingMode .imm .write)) ∧
    (∀ f, stepWith c s = .fault f → s.rc = 0 ∧ observe (stepWith c s) s = (.failed f, s)) ∧
    ∀ (r : Mode) (d : Direction), step s ≠ .fault (.unsupportedAddressingMode r d)

/-- No refusal on an instruction that could be executed. -/
def Obligations.SpecParametersRefuseNothing : Prop :=
  (∀ (i : Instr) (s : State) (w : Refusal), exec i s ≠ .refused w) ∧
  (∀ (s : State) (w : Refusal), step s ≠ .refused w) ∧
  ∀ s : State, (∃ t, hostStep s = (.ok, t)) ∨
    (∃ b, hostStep s = (.failed (.invalidOpcode b), s)) ∨ ∃ k, hostStep s = (.failed (.unsupportedInstruction k), s)

/-- R71, R72 and the last sentence of R130. -/
def Obligations.SourceVariantIsRefused : Prop :=
  ∀ (c : Config) (k : Kind) (op : Operand) (s : State), c.indirect = .source → k.implemented = true →
    op.mode = .indx ∨ op.mode = .indy →
    execWith c (k.instr op) s = .refused (.indirectVariant op.mode) ∧
    (s.rc = 0 → s.fetchInstr c.table = k.instr op → stepWith c s = .refused (.indirectVariant op.mode))

/-- The per-instruction statements reach a run through this one. -/
def Obligations.StepRunsTheDecodedInstruction : Prop :=
  ∀ (s : State) (i : Instr) (rest : List Byte), s.rc = 0 →
    decode [s.read s.pc, s.read (s.pc + 1), s.read (s.pc + 2)] = .ok (i, rest) → i.wf = true →
    step s = onNext (fun t => { t with rc := cyclesOf specTable (s.read s.pc) - 1 }) (exec i s)

/-- R121. -/
def Obligations.IdleStepCountsDown : Prop :=
  ∀ (c : Config) (s : State), s.rc > 0 →
    step s = .next { s with rc := s.rc - 1 } ∧ stepWith c s = .next { s with rc := s.rc - 1 } ∧ busTrace c s = []

/-- R130, read from the table entry rather than from the decoded instruction. -/
def Obligations.StepIsTheWholeStepRule : Prop :=
  (∀ (c : Config) (s : State), stepWith c s = stepByRule c s) ∧
  ∀ s : State, step s = stepByRule Config.spec s

/-- R2 to R5. -/
def Obligations.ExecIsTheSpecParameters : Prop :=
  (∀ (i : Instr) (s : State), exec i s = execWith Config.spec i s) ∧ ∀ s : State, step s = stepWith Config.spec s

/-- R132: one fetch-dispatch step does all the work and the rest idle. -/
def Obligations.InstructionsOccupyTheirCycles : Prop :=
  (∀ (n : Nat) (s t : State) (steps : Nat), s.rc = 0 → runInstrs n s = some (t, steps) →
    run steps s = .next t ∧ t.rc = 0) ∧
  (∀ (s t : State) (j : Nat), s.rc = 0 → step s = .next t → 1 ≤ j → j ≤ cyclesOf specTable (s.read s.pc) →
    run j s = .next { t with rc := cyclesOf specTable (s.read s.pc) - j }) ∧
  ∀ (s : State) (f : Fault), step s = .fault f → (hostStep s).2 = s ∧ s.rc = 0

/-- R240 and R244. -/
def Obligations.FailureRepeatsUntilTheBusChanges : Prop :=
  (∀ (s : State) (f : Fault), step s = .fault f →
    hostStep s = (.failed f, s) ∧ hostStep (hostStep s).2 = (.failed f, s)) ∧
  StepStatus.ok.code = some 0 ∧
  (∀ b, (StepStatus.failed (.invalidOpcode b)).code = some 1) ∧
  (∀ k, (StepStatus.failed (.unsupportedInstruction k)).code = some 2) ∧
  ∀ r d, (StepStatus.failed (.unsupportedAddressingMode r d)).code = some 3

/-- R270. -/
def Obligations.ConstructionSetsEveryRegister : Prop :=
  ∀ (c : Config) (bus : Memory) (s : State), s = construct c bus →
    s.pc.toNat = (Memory.read bus (c.resetVector.toNat + 1)).toNat * 256 + (Memory.read bus c.resetVector.toNat).toNat ∧
    s.sp = 0xFF ∧ s.a = 0 ∧ s.x = 0 ∧ s.y = 0 ∧ s.p = 0 ∧ (∀ f, s.flag f = false) ∧ s.rc = 0 ∧ s.mem = bus

/-- R271. The last clause rests on the model's choice of what unlisted memory reads as (log entry 1, DESIGN CHOICE). -/
def Obligations.ResetIsConstructionOnAnEmptyBus : Prop :=
  State.reset = construct Config.spec [] ∧ Config.spec.resetVector = 0xFFFC ∧ State.reset.pc = 0x0000

/-- R94. -/
def Obligations.LaunchRefusesMalformedConfigurations : Prop :=
  ∀ (c : Config) (bus : Memory),
    (launch c bus = .ok (construct c bus) ↔ c.table.wf = true ∧ c.resetVector ≠ 0xFFFF) ∧
    (c.table.wf = false → launch c bus = .error .malformedTable)

/-- The base case of the invariant. -/
def Obligations.ResetSatisfiesTheInvariant : Prop :=
  State.reset.Inv

/-- From every state that meets the invariant, not only reachable ones. -/
def Obligations.StepKeepsTheInvariant : Prop :=
  ∀ s t : State, s.Inv → step s = .next t → t.Inv

/-- The derived clauses of R24, R29, R30, R31, R32 and R37. -/
def Obligations.ReachableStatesKeepStackPointerAndInertFlags : Prop :=
  ∀ s : State, Reachable s → s.Inv

/-- R24, R29 to R32: nothing reads or writes them. -/
def Obligations.StackPointerAndInertFlagsAreNeverRead : Prop :=
  (∀ (i : Instr) (s : State) (v q : Byte),
    exec i { s with sp := v } = onNext (fun t => { t with sp := v }) (exec i s) ∧
    exec i (flipInert q s) = onNext (flipInert q) (exec i s)) ∧
  ∀ (s : State) (v q : Byte),
    step { s with sp := v } = onNext (fun t => { t with sp := v }) (step s) ∧
    step (flipInert q s) = onNext (flipInert q) (step s)

/-- R77: the order is the spec choice of D13, and no state depends on it. -/
def Obligations.BusTraceExplainsTheMemory : Prop :=
  (∀ (c : Config) (s t : State), stepWith c s = .next t →
    t.mem = (busTrace c s).foldl BusAccess.apply s.mem) ∧
  ∀ (c : Config) (s : State), s.rc = 0 →
    (∀ e, c.table.lookup (s.read s.pc) = some e → e.kind.implemented = false) → busTrace c s = [.read s.pc]

/-- R82 and R276: coherent fetch, and the one case where an instruction overwrites its own bytes. -/
def Obligations.FetchSeesTheLastStore : Prop :=
  ∀ s : State, Memory.wf s.mem = true → s.rc = 0 → s.read s.pc = 0x8D →
    (s.read16 (s.pc + 1) = s.pc + 3 → ∃ t, run 4 s = .next t ∧ t.rc = 0 ∧ t.pc = s.pc + 3 ∧
      t.fetchInstr specTable = decodeBytes specTable s.a (s.read (s.pc + 4)) (s.read (s.pc + 5))) ∧
    (s.read16 (s.pc + 1) = s.pc + 1 → ∃ t, step s = .next t ∧ t.pc = s.pc + 3 ∧ Stored s t (s.pc + 1) s.a)

/-- R281 (and R129: there is no halt). -/
def Obligations.SelfJumpRepeatsEveryThreeSteps : Prop :=
  (∀ s : State, s.endOfRun = true ↔
    (s.rc = 0 ∧ s.read s.pc = 0x4C ∧ s.read16 (s.pc + 1) = s.pc) ∨ ∀ t, step s ≠ .next t) ∧
  ∀ (s : State) (n : Nat), s.rc = 0 → s.selfJump = true → run (3 * n) s = .next s
end

