-- ==== Sys2Proof/Laws/State.lean ====
section
/-! SUPPORT. One lemma per field per register write, so that no later proof unfolds a record update; what the composite
writes (bus write, PC advance, flag writes) leave alone. -/

namespace Sys2Proof.Machine

namespace State

@[simp] theorem setA_a (s : State) (v : Byte) : (s.setA v).a = v := rfl
@[simp] theorem setA_x (s : State) (v : Byte) : (s.setA v).x = s.x := rfl
@[simp] theorem setA_y (s : State) (v : Byte) : (s.setA v).y = s.y := rfl
@[simp] theorem setA_sp (s : State) (v : Byte) : (s.setA v).sp = s.sp := rfl
@[simp] theorem setA_p (s : State) (v : Byte) : (s.setA v).p = s.p := rfl
@[simp] theorem setA_pc (s : State) (v : Byte) : (s.setA v).pc = s.pc := rfl
@[simp] theorem setA_rc (s : State) (v : Byte) : (s.setA v).rc = s.rc := rfl
@[simp] theorem setA_mem (s : State) (v : Byte) : (s.setA v).mem = s.mem := rfl

@[simp] theorem setX_a (s : State) (v : Byte) : (s.setX v).a = s.a := rfl
@[simp] theorem setX_x (s : State) (v : Byte) : (s.setX v).x = v := rfl
@[simp] theorem setX_y (s : State) (v : Byte) : (s.setX v).y = s.y := rfl
@[simp] theorem setX_sp (s : State) (v : Byte) : (s.setX v).sp = s.sp := rfl
@[simp] theorem setX_p (s : State) (v : Byte) : (s.setX v).p = s.p := rfl
@[simp] theorem setX_pc (s : State) (v : Byte) : (s.setX v).pc = s.pc := rfl
@[simp] theorem setX_rc (s : State) (v : Byte) : (s.setX v).rc = s.rc := rfl
@[simp] theorem setX_mem (s : State) (v : Byte) : (s.setX v).mem = s.mem := rfl

@[simp] theorem setY_a (s : State) (v : Byte) : (s.setY v).a = s.a := rfl
@[simp] theorem setY_x (s : State) (v : Byte) : (s.setY v).x = s.x := rfl
@[simp] theorem setY_y (s : State) (v : Byte) : (s.setY v).y = v := rfl
@[simp] theorem setY_sp (s : State) (v : Byte) : (s.setY v).sp = s.sp := rfl
@[simp] theorem setY_p (s : State) (v : Byte) : (s.setY v).p = s.p := rfl
@[simp] theorem setY_pc (s : State) (v : Byte) : (s.setY v).pc = s.pc := rfl
@[simp] theorem setY_rc (s : State) (v : Byte) : (s.setY v).rc = s.rc := rfl
@[simp] theorem setY_mem (s : State) (v : Byte) : (s.setY v).mem = s.mem := rfl

@[simp] theorem setP_a (s : State) (v : Byte) : (s.setP v).a = s.a := rfl
@[simp] theorem setP_x (s : State) (v : Byte) : (s.setP v).x = s.x := rfl
@[simp] theorem setP_y (s : State) (v : Byte) : (s.setP v).y = s.y := rfl
@[simp] theorem setP_sp (s : State) (v : Byte) : (s.setP v).sp = s.sp := rfl
@[simp] theorem setP_p (s : State) (v : Byte) : (s.setP v).p = v := rfl
@[simp] theorem setP_pc (s : State) (v : Byte) : (s.setP v).pc = s.pc := rfl
@[simp] theorem setP_rc (s : State) (v : Byte) : (s.setP v).rc = s.rc := rfl
@[simp] theorem setP_mem (s : State) (v : Byte) : (s.setP v).mem = s.mem := rfl

@[simp] theorem setPc_a (s : State) (w : Word) : (s.setPc w).a = s.a := rfl
@[simp] theorem setPc_x (s : State) (w : Word) : (s.setPc w).x = s.x := rfl
@[simp] theorem setPc_y (s : State) (w : Word) : (s.setPc w).y = s.y := rfl
@[simp] theorem setPc_sp (s : State) (w : Word) : (s.setPc w).sp = s.sp := rfl
@[simp] theorem setPc_p (s : State) (w : Word) : (s.setPc w).p = s.p := rfl
@[simp] theorem setPc_pc (s : State) (w : Word) : (s.setPc w).pc = w := rfl
@[simp] theorem setPc_rc (s : State) (w : Word) : (s.setPc w).rc = s.rc := rfl
@[simp] theorem setPc_mem (s : State) (w : Word) : (s.setPc w).mem = s.mem := rfl

@[simp] theorem setRc_a (s : State) (n : Nat) : (s.setRc n).a = s.a := rfl
@[simp] theorem setRc_x (s : State) (n : Nat) : (s.setRc n).x = s.x := rfl
@[simp] theorem setRc_y (s : State) (n : Nat) : (s.setRc n).y = s.y := rfl
@[simp] theorem setRc_sp (s : State) (n : Nat) : (s.setRc n).sp = s.sp := rfl
@[simp] theorem setRc_p (s : State) (n : Nat) : (s.setRc n).p = s.p := rfl
@[simp] theorem setRc_pc (s : State) (n : Nat) : (s.setRc n).pc = s.pc := rfl
@[simp] theorem setRc_rc (s : State) (n : Nat) : (s.setRc n).rc = n := rfl
@[simp] theorem setRc_mem (s : State) (n : Nat) : (s.setRc n).mem = s.mem := rfl

@[simp] theorem setMem_a (s : State) (m : Memory) : (s.setMem m).a = s.a := rfl
@[simp] theorem setMem_x (s : State) (m : Memory) : (s.setMem m).x = s.x := rfl
@[simp] theorem setMem_y (s : State) (m : Memory) : (s.setMem m).y = s.y := rfl
@[simp] theorem setMem_sp (s : State) (m : Memory) : (s.setMem m).sp = s.sp := rfl
@[simp] theorem setMem_p (s : State) (m : Memory) : (s.setMem m).p = s.p := rfl
@[simp] theorem setMem_pc (s : State) (m : Memory) : (s.setMem m).pc = s.pc := rfl
@[simp] theorem setMem_rc (s : State) (m : Memory) : (s.setMem m).rc = s.rc := rfl
@[simp] theorem setMem_mem (s : State) (m : Memory) : (s.setMem m).mem = m := rfl

@[simp] theorem write_a (s : State) (addr : Word) (v : Byte) : (s.write addr v).a = s.a := rfl
@[simp] theorem write_x (s : State) (addr : Word) (v : Byte) : (s.write addr v).x = s.x := rfl
@[simp] theorem write_y (s : State) (addr : Word) (v : Byte) : (s.write addr v).y = s.y := rfl
@[simp] theorem write_sp (s : State) (addr : Word) (v : Byte) : (s.write addr v).sp = s.sp := rfl
@[simp] theorem write_p (s : State) (addr : Word) (v : Byte) : (s.write addr v).p = s.p := rfl
@[simp] theorem write_pc (s : State) (addr : Word) (v : Byte) : (s.write addr v).pc = s.pc := rfl
@[simp] theorem write_rc (s : State) (addr : Word) (v : Byte) : (s.write addr v).rc = s.rc := rfl

@[simp] theorem advance_a (s : State) (op : Operand) : (s.advance op).a = s.a := rfl
@[simp] theorem advance_x (s : State) (op : Operand) : (s.advance op).x = s.x := rfl
@[simp] theorem advance_y (s : State) (op : Operand) : (s.advance op).y = s.y := rfl
@[simp] theorem advance_sp (s : State) (op : Operand) : (s.advance op).sp = s.sp := rfl
@[simp] theorem advance_p (s : State) (op : Operand) : (s.advance op).p = s.p := rfl
@[simp] theorem advance_rc (s : State) (op : Operand) : (s.advance op).rc = s.rc := rfl
@[simp] theorem advance_mem (s : State) (op : Operand) : (s.advance op).mem = s.mem := rfl

@[simp] theorem putFlag_a (s : State) (f : Flag) (b : Bool) : (s.putFlag f b).a = s.a := rfl
@[simp] theorem putFlag_x (s : State) (f : Flag) (b : Bool) : (s.putFlag f b).x = s.x := rfl
@[simp] theorem putFlag_y (s : State) (f : Flag) (b : Bool) : (s.putFlag f b).y = s.y := rfl
@[simp] theorem putFlag_sp (s : State) (f : Flag) (b : Bool) : (s.putFlag f b).sp = s.sp := rfl
@[simp] theorem putFlag_pc (s : State) (f : Flag) (b : Bool) : (s.putFlag f b).pc = s.pc := rfl
@[simp] theorem putFlag_rc (s : State) (f : Flag) (b : Bool) : (s.putFlag f b).rc = s.rc := rfl
@[simp] theorem putFlag_mem (s : State) (f : Flag) (b : Bool) : (s.putFlag f b).mem = s.mem := rfl

@[simp] theorem setNegative_a (s : State) (v : Byte) : (s.setNegative v).a = s.a := rfl
@[simp] theorem setNegative_x (s : State) (v : Byte) : (s.setNegative v).x = s.x := rfl
@[simp] theorem setNegative_y (s : State) (v : Byte) : (s.setNegative v).y = s.y := rfl
@[simp] theorem setNegative_sp (s : State) (v : Byte) : (s.setNegative v).sp = s.sp := rfl
@[simp] theorem setNegative_pc (s : State) (v : Byte) : (s.setNegative v).pc = s.pc := rfl
@[simp] theorem setNegative_rc (s : State) (v : Byte) : (s.setNegative v).rc = s.rc := rfl
@[simp] theorem setNegative_mem (s : State) (v : Byte) : (s.setNegative v).mem = s.mem := rfl

@[simp] theorem setZero_a (s : State) (v : Byte) : (s.setZero v).a = s.a := rfl
@[simp] theorem setZero_x (s : State) (v : Byte) : (s.setZero v).x = s.x := rfl
@[simp] theorem setZero_y (s : State) (v : Byte) : (s.setZero v).y = s.y := rfl
@[simp] theorem setZero_sp (s : State) (v : Byte) : (s.setZero v).sp = s.sp := rfl
@[simp] theorem setZero_pc (s : State) (v : Byte) : (s.setZero v).pc = s.pc := rfl
@[simp] theorem setZero_rc (s : State) (v : Byte) : (s.setZero v).rc = s.rc := rfl
@[simp] theorem setZero_mem (s : State) (v : Byte) : (s.setZero v).mem = s.mem := rfl

@[simp] theorem setNZ_a (s : State) (v : Byte) : (s.setNZ v).a = s.a := rfl
@[simp] theorem setNZ_x (s : State) (v : Byte) : (s.setNZ v).x = s.x := rfl
@[simp] theorem setNZ_y (s : State) (v : Byte) : (s.setNZ v).y = s.y := rfl
@[simp] theorem setNZ_sp (s : State) (v : Byte) : (s.setNZ v).sp = s.sp := rfl
@[simp] theorem setNZ_pc (s : State) (v : Byte) : (s.setNZ v).pc = s.pc := rfl
@[simp] theorem setNZ_rc (s : State) (v : Byte) : (s.setNZ v).rc = s.rc := rfl
@[simp] theorem setNZ_mem (s : State) (v : Byte) : (s.setNZ v).mem = s.mem := rfl

@[simp] theorem setCarry_a (s : State) (b : Bool) : (s.setCarry b).a = s.a := rfl
@[simp] theorem setCarry_x (s : State) (b : Bool) : (s.setCarry b).x = s.x := rfl
@[simp] theorem setCarry_y (s : State) (b : Bool) : (s.setCarry b).y = s.y := rfl
@[simp] theorem setCarry_sp (s : State) (b : Bool) : (s.setCarry b).sp = s.sp := rfl
@[simp] theorem setCarry_pc (s : State) (b : Bool) : (s.setCarry b).pc = s.pc := rfl
@[simp] theorem setCarry_rc (s : State) (b : Bool) : (s.setCarry b).rc = s.rc := rfl
@[simp] theorem setCarry_mem (s : State) (b : Bool) : (s.setCarry b).mem = s.mem := rfl

@[simp] theorem setOverflow_a (s : State) (b : Bool) : (s.setOverflow b).a = s.a := rfl
@[simp] theorem setOverflow_x (s : State) (b : Bool) : (s.setOverflow b).x = s.x := rfl
@[simp] theorem setOverflow_y (s : State) (b : Bool) : (s.setOverflow b).y = s.y := rfl
@[simp] theorem setOverflow_sp (s : State) (b : Bool) : (s.setOverflow b).sp = s.sp := rfl
@[simp] theorem setOverflow_pc (s : State) (b : Bool) : (s.setOverflow b).pc = s.pc := rfl
@[simp] theorem setOverflow_rc (s : State) (b : Bool) : (s.setOverflow b).rc = s.rc := rfl
@[simp] theorem setOverflow_mem (s : State) (b : Bool) : (s.setOverflow b).mem = s.mem := rfl

@[simp] theorem putCompare_a (s : State) (v m : Byte) : (s.putCompare v m).a = s.a := rfl
@[simp] theorem putCompare_x (s : State) (v m : Byte) : (s.putCompare v m).x = s.x := rfl
@[simp] theorem putCompare_y (s : State) (v m : Byte) : (s.putCompare v m).y = s.y := rfl
@[simp] theorem putCompare_sp (s : State) (v m : Byte) : (s.putCompare v m).sp = s.sp := rfl
@[simp] theorem putCompare_pc (s : State) (v m : Byte) : (s.putCompare v m).pc = s.pc := rfl
@[simp] theorem putCompare_rc (s : State) (v m : Byte) : (s.putCompare v m).rc = s.rc := rfl
@[simp] theorem putCompare_mem (s : State) (v m : Byte) : (s.putCompare v m).mem = s.mem := rfl

@[simp] theorem putBitTest_a (s : State) (m : Byte) : (s.putBitTest m).a = s.a := rfl
@[simp] theorem putBitTest_x (s : State) (m : Byte) : (s.putBitTest m).x = s.x := rfl
@[simp] theorem putBitTest_y (s : State) (m : Byte) : (s.putBitTest m).y = s.y := rfl
@[simp] theorem putBitTest_sp (s : State) (m : Byte) : (s.putBitTest m).sp = s.sp := rfl
@[simp] theorem putBitTest_pc (s : State) (m : Byte) : (s.putBitTest m).pc = s.pc := rfl
@[simp] theorem putBitTest_rc (s : State) (m : Byte) : (s.putBitTest m).rc = s.rc := rfl
@[simp] theorem putBitTest_mem (s : State) (m : Byte) : (s.putBitTest m).mem = s.mem := rfl

@[simp] theorem putAlu_x (s : State) (r : AluResult) : (s.putAlu r).x = s.x := rfl
@[simp] theorem putAlu_y (s : State) (r : AluResult) : (s.putAlu r).y = s.y := rfl
@[simp] theorem putAlu_sp (s : State) (r : AluResult) : (s.putAlu r).sp = s.sp := rfl
@[simp] theorem putAlu_pc (s : State) (r : AluResult) : (s.putAlu r).pc = s.pc := rfl
@[simp] theorem putAlu_rc (s : State) (r : AluResult) : (s.putAlu r).rc = s.rc := rfl
@[simp] theorem putAlu_mem (s : State) (r : AluResult) : (s.putAlu r).mem = s.mem := rfl
@[simp] theorem putAlu_a (s : State) (r : AluResult) : (s.putAlu r).a = r.value := rfl

@[simp] theorem advance_pc (s : State) (op : Operand) : (s.advance op).pc = s.pc + BitVec.ofNat 16 op.length := rfl
@[simp] theorem write_mem (s : State) (addr : Word) (v : Byte) :
    (s.write addr v).mem = Memory.write s.mem addr.toNat v := rfl

/-! A byte read and a flag depend on one field each. -/

theorem read_of_mem {s t : State} (h : t.mem = s.mem) (addr : Word) : t.read addr = s.read addr := by
  simp [State.read, h]

theorem read16_of_mem {s t : State} (h : t.mem = s.mem) (addr : Word) : t.read16 addr = s.read16 addr := by
  simp [State.read16, read_of_mem h]

theorem read16zp_of_mem {s t : State} (h : t.mem = s.mem) (z : Byte) : t.read16zp z = s.read16zp z := by
  simp [State.read16zp, read_of_mem h]

theorem flag_of_p {s t : State} (h : t.p = s.p) (f : Flag) : t.flag f = s.flag f := by
  simp [State.flag, h]

@[ext] theorem ext {s t : State} (ha : s.a = t.a) (hx : s.x = t.x) (hy : s.y = t.y) (hsp : s.sp = t.sp)
    (hp : s.p = t.p) (hpc : s.pc = t.pc) (hrc : s.rc = t.rc) (hmem : s.mem = t.mem) : s = t := by
  cases s; cases t; simp_all

end State

end Sys2Proof.Machine
end

