-- ==== Sys2Proof/Laws/Flags.lean ====
section
/-! SUPPORT. The status byte: what each flag operation writes and what it keeps (spec/10_state.md R35, R36). -/

namespace Sys2Proof.Machine

theorem getFlag_setFlag (p : Byte) (f g : Flag) (b : Bool) :
    getFlag (setFlag p f b) g = if g = f then b else getFlag p g := by
  cases f <;> cases g <;> cases b <;> simp [getFlag, setFlag, Flag.bit]

namespace State

@[simp] theorem flag_putFlag (s : State) (f g : Flag) (b : Bool) :
    (s.putFlag f b).flag g = if g = f then b else s.flag g :=
  getFlag_setFlag s.p f g b

@[simp] theorem flag_setNegative (s : State) (v : Byte) (g : Flag) :
    (s.setNegative v).flag g = if g = .n then v.getLsbD 7 else s.flag g :=
  flag_putFlag s .n g _

@[simp] theorem flag_setZero (s : State) (v : Byte) (g : Flag) :
    (s.setZero v).flag g = if g = .z then v == 0 else s.flag g :=
  flag_putFlag s .z g _

@[simp] theorem flag_setCarry (s : State) (b : Bool) (g : Flag) :
    (s.setCarry b).flag g = if g = .c then b else s.flag g :=
  flag_putFlag s .c g b

@[simp] theorem flag_setOverflow (s : State) (b : Bool) (g : Flag) :
    (s.setOverflow b).flag g = if g = .v then b else s.flag g :=
  flag_putFlag s .v g b

/-- `SetNZ` writes N and Z and keeps the rest (R10, R36). -/
@[simp] theorem flag_setNZ (s : State) (v : Byte) (g : Flag) :
    (s.setNZ v).flag g = if g = .z then v == 0 else if g = .n then v.getLsbD 7 else s.flag g := by
  simp [setNZ]

@[simp] theorem flag_setA (s : State) (v : Byte) (g : Flag) : (s.setA v).flag g = s.flag g := rfl
@[simp] theorem flag_setX (s : State) (v : Byte) (g : Flag) : (s.setX v).flag g = s.flag g := rfl
@[simp] theorem flag_setY (s : State) (v : Byte) (g : Flag) : (s.setY v).flag g = s.flag g := rfl
@[simp] theorem flag_setPc (s : State) (w : Word) (g : Flag) : (s.setPc w).flag g = s.flag g := rfl
@[simp] theorem flag_setRc (s : State) (n : Nat) (g : Flag) : (s.setRc n).flag g = s.flag g := rfl
@[simp] theorem flag_advance (s : State) (op : Operand) (g : Flag) : (s.advance op).flag g = s.flag g := rfl
@[simp] theorem flag_write (s : State) (addr : Word) (v : Byte) (g : Flag) : (s.write addr v).flag g = s.flag g := rfl

/-- ADC and SBC write N, V, Z and C (R150, R151). -/
@[simp] theorem flag_putAlu (s : State) (r : AluResult) (g : Flag) :
    (s.putAlu r).flag g =
      if g = .z then r.value == 0 else if g = .n then r.value.getLsbD 7
      else if g = .v then r.overflow else if g = .c then r.carry else s.flag g := by
  simp [putAlu]

/-- A compare writes N, Z and C (R180 to R182). -/
@[simp] theorem flag_putCompare (s : State) (v m : Byte) (g : Flag) :
    (s.putCompare v m).flag g =
      if g = .c then decide (v.toNat ≥ m.toNat)
      else if g = .z then v - m == 0 else if g = .n then (v - m).getLsbD 7 else s.flag g := by
  simp [putCompare]

/-- BIT writes N, V and Z (R183). -/
@[simp] theorem flag_putBitTest (s : State) (m : Byte) (g : Flag) :
    (s.putBitTest m).flag g =
      if g = .z then s.a &&& m == 0 else if g = .v then m.getLsbD 6
      else if g = .n then m.getLsbD 7 else s.flag g := by
  simp [putBitTest]

end State

end Sys2Proof.Machine
end

