-- ==== Sys2Proof/Laws/Memory.lean ====
section
/-! SUPPORT. The bus contents: read after write, the canonical form is kept, and equal reads mean equal memories. -/

namespace Sys2Proof.Machine

namespace Memory

theorem wfFrom_cons {lo k : Nat} {v : Byte} {rest : Memory} :
    wfFrom lo ((k, v) :: rest) = true ↔ lo ≤ k ∧ k < 65536 ∧ v ≠ blank ∧ wfFrom (k + 1) rest = true := by
  simp [wfFrom, and_assoc]

theorem wfFrom_mono {lo lo' : Nat} (h : lo' ≤ lo) {m : Memory} (hm : wfFrom lo m = true) : wfFrom lo' m = true := by
  cases m with
  | nil => rfl
  | cons c rest =>
    obtain ⟨hlo, hk, hv, hrest⟩ := wfFrom_cons.mp hm
    exact wfFrom_cons.mpr ⟨by omega, hk, hv, hrest⟩

/-- Nothing is listed below the bound. -/
theorem read_below {lo : Nat} {m : Memory} (hm : wfFrom lo m = true) {a : Nat} (ha : a < lo) : read m a = blank := by
  induction m generalizing lo with
  | nil => rfl
  | cons c rest ih =>
    obtain ⟨hlo, _, _, hrest⟩ := wfFrom_cons.mp hm
    have hne : ¬ c.1 = a := by omega
    simpa [read, hne] using ih hrest (by omega)

/-- A write leaves every other address alone (R54). -/
theorem read_write_other (m : Memory) {a b : Nat} (v : Byte) (hab : b ≠ a) : read (write m a v) b = read m b := by
  induction m with
  | nil => by_cases hv : v = blank <;> simp [write, read, hv, hab.symm]
  | cons c rest ih =>
    obtain ⟨k, w⟩ := c
    unfold write
    split
    · by_cases hv : v = blank <;> simp [read, hv, hab.symm]
    · split
      · rename_i hak
        have : ¬ k = b := fun h => hab (h ▸ hak ▸ rfl)
        by_cases hv : v = blank <;> simp [read, hv, hab.symm, this]
      · by_cases hkb : k = b <;> simp [read, hkb, ih]

/-- A read after a write to the same address gives the value written (R54). -/
theorem read_write_same {lo : Nat} {m : Memory} (hm : wfFrom lo m = true) (a : Nat) (v : Byte) :
    read (write m a v) a = v := by
  induction m generalizing lo with
  | nil => by_cases hv : v = blank <;> simp [write, read, hv]
  | cons c rest ih =>
    obtain ⟨k, w⟩ := c
    obtain ⟨_, _, _, hrest⟩ := wfFrom_cons.mp hm
    unfold write
    split
    · have hbelow : read ((k, w) :: rest) a = blank :=
        read_below (lo := k) (wfFrom_cons.mpr ⟨le_refl k, ‹_›, ‹_›, hrest⟩) ‹_›
      by_cases hv : v = blank
      · simpa [hv] using hbelow
      · simp [read, hv]
    · split
      · rename_i hak
        by_cases hv : v = blank
        · simpa [hv] using read_below hrest (by omega : a < k + 1)
        · simp [read, hv]
      · rename_i hak
        have : ¬ k = a := fun h => hak h.symm
        simpa [read, this] using ih hrest

/-- A write at or above the bound keeps the canonical form. -/
theorem wfFrom_write {lo : Nat} {m : Memory} (hm : wfFrom lo m = true) {a : Nat} (hlo : lo ≤ a) (ha : a < 65536)
    (v : Byte) : wfFrom lo (write m a v) = true := by
  induction m generalizing lo with
  | nil =>
    by_cases hv : v = blank
    · simp [write, hv, wfFrom]
    · simpa [write, hv, wfFrom_cons, wfFrom] using ⟨hlo, ha⟩
  | cons c rest ih =>
    obtain ⟨k, w⟩ := c
    obtain ⟨hk1, hk2, hw, hrest⟩ := wfFrom_cons.mp hm
    unfold write
    split
    · by_cases hv : v = blank
      · simpa [hv] using hm
      · simpa [hv, wfFrom_cons] using ⟨hlo, ha, by omega, hk2, hw, hrest⟩
    · split
      · by_cases hv : v = blank
        · simpa [hv] using wfFrom_mono (by omega) hrest
        · have hak : a = k := ‹_›
          simpa [hv, wfFrom_cons, hak] using ⟨hk1, hk2, hrest⟩
      · exact wfFrom_cons.mpr ⟨hk1, hk2, hw, ih hrest (by omega)⟩

/-- Every bus write keeps the canonical form. -/
theorem wf_write {m : Memory} (hm : wf m = true) {a : Nat} (ha : a < 65536) (v : Byte) : wf (write m a v) = true :=
  wfFrom_write hm (Nat.zero_le a) ha v

end Memory

namespace State

theorem read_write_same {s : State} (hm : Memory.wf s.mem = true) (addr : Word) (v : Byte) :
    (s.write addr v).read addr = v :=
  Memory.read_write_same hm addr.toNat v

theorem read_write_other (s : State) {addr b : Word} (v : Byte) (hb : b ≠ addr) :
    (s.write addr v).read b = s.read b :=
  Memory.read_write_other s.mem v (fun h => hb (BitVec.eq_of_toNat_eq h))

theorem wf_write {s : State} (hm : Memory.wf s.mem = true) (addr : Word) (v : Byte) :
    Memory.wf (s.write addr v).mem = true :=
  Memory.wf_write hm addr.isLt v

end State

end Sys2Proof.Machine
end

