-- ==== Sys2Proof/Laws/Operands.lean ====
section
/-! SUPPORT. Outcomes in sequence, and everything the addressing resolver can answer (spec/20_memory.md R60 to R75). -/

namespace Sys2Proof.Machine

@[simp] theorem andThen_next {α β : Type} (v : α) (k : α → Result β) : andThen (.next v) k = k v := rfl
@[simp] theorem andThen_fault {α β : Type} (f : Fault) (k : α → Result β) : andThen (.fault f) k = .fault f := rfl
@[simp] theorem andThen_refused {α β : Type} (w : Refusal) (k : α → Result β) :
    andThen (.refused w) k = .refused w := rfl

/-- A sequence answers exactly when both parts do. -/
theorem andThen_eq_next {α β : Type} {r : Result α} {k : α → Result β} {b : β} :
    andThen r k = .next b ↔ ∃ a, r = .next a ∧ k a = .next b := by
  cases r <;> simp [andThen]

/-- A sequence whose second part always answers. -/
theorem andThen_map_eq_next {α β : Type} {r : Result α} {g : α → β} {b : β} :
    andThen r (fun a => .next (g a)) = .next b ↔ ∃ a, r = .next a ∧ b = g a := by
  rw [andThen_eq_next]
  exact exists_congr fun a => and_congr_right fun _ => by rw [Host.Outcome.next.injEq, eq_comm]

/-- A sequence fails in its first part, or in its second after the first answered. -/
theorem andThen_eq_fault {α β : Type} {r : Result α} {k : α → Result β} {f : Fault} :
    andThen r k = .fault f ↔ r = .fault f ∨ ∃ a, r = .next a ∧ k a = .fault f := by
  cases r <;> simp [andThen]

/-- A sequence is refused in its first part, or in its second after the first answered. -/
theorem andThen_eq_refused {α β : Type} {r : Result α} {k : α → Result β} {w : Refusal} :
    andThen r k = .refused w ↔ r = .refused w ∨ ∃ a, r = .next a ∧ k a = .refused w := by
  cases r <;> simp [andThen]

/-- The modes with an effective address (the table under R60). -/
def hasAddress : Mode → Bool
  | .zp | .zpx | .zpy | .abs | .absx | .absy | .indx | .indy => true
  | .imp | .acc | .imm | .rel | .ind => false

/-- Where the resolver gives an address, it gives the same in the other direction. -/
theorem address_dir {c : Config} {op : Operand} {s : State} {a : Word} {dir : Direction}
    (h : address c dir op s = .next a) (dir' : Direction) : address c dir' op s = .next a := by
  cases op <;> simp_all [address, raise]

/-- With the official semantics a mode with an effective address gives the same one in both directions (R75). -/
theorem address_total {c : Config} (hc : c.indirect = .official) {op : Operand} (h : hasAddress op.mode = true)
    (s : State) : ∃ a, ∀ dir, address c dir op s = .next a := by
  have hread : ∃ a, address c .read op s = .next a := by
    cases op <;> simp_all [hasAddress, Operand.mode, address]
  obtain ⟨a, ha⟩ := hread
  exact ⟨a, address_dir ha⟩

/-- A mode without an effective address fails, naming the mode and the direction (R61, R68, R73). -/
theorem address_fails {c : Config} {op : Operand} (h : hasAddress op.mode = false) (dir : Direction) (s : State) :
    address c dir op s = .fault (.unsupportedAddressingMode op.mode dir) := by
  cases op <;> simp_all [hasAddress, Operand.mode, address, raise]

/-- The resolver reads the bus, X and Y and nothing else (R60). -/
theorem address_of_fields {s t : State} (hm : t.mem = s.mem) (hx : t.x = s.x) (hy : t.y = s.y) (c : Config)
    (dir : Direction) (op : Operand) : address c dir op t = address c dir op s := by
  cases op <;> simp [address, hx, hy, State.read16zp_of_mem hm]

theorem readOperand_of_fields {s t : State} (hm : t.mem = s.mem) (hx : t.x = s.x) (hy : t.y = s.y) (c : Config)
    (op : Operand) : readOperand c op t = readOperand c op s := by
  unfold readOperand
  simp only [address_of_fields hm hx hy, State.read_of_mem hm]

/-- Every mode but immediate reads the byte at its effective address (R74). -/
theorem readOperand_eq {c : Config} {op : Operand} (h : op.mode ≠ .imm) (s : State) :
    readOperand c op s = andThen (address c .read op s) fun a => .next (s.read a) := by
  cases op <;> simp_all [readOperand, Operand.mode]

/-- A readable mode: immediate, or one with an effective address. -/
theorem readOperand_total {c : Config} (hc : c.indirect = .official) {op : Operand}
    (h : op.mode = .imm ∨ hasAddress op.mode = true) (s : State) : ∃ v, readOperand c op s = .next v := by
  by_cases hi : op.mode = .imm
  · cases op <;> simp_all [Operand.mode, readOperand]
  · obtain ⟨a, ha⟩ := address_total hc (h.resolve_left hi) s
    exact ⟨s.read a, by simp [readOperand_eq hi, ha]⟩

/-- A write answers exactly with the one byte at the effective address stored (R75). -/
theorem writeOperand_eq_next {c : Config} {op : Operand} {v : Byte} {s t : State} :
    writeOperand c op v s = .next t ↔ ∃ a, address c .write op s = .next a ∧ t = s.write a v := by
  exact andThen_map_eq_next

end Sys2Proof.Machine
end

