-- ==== Sys2Proof/Laws/Meanings.lean ====
section
/-! SUPPORT. One lemma per shared operation: exactly when it answers a next state, and which. -/

namespace Sys2Proof.Machine

theorem load_eq_next {c : Config} {op : Operand} {put : State → Byte → State} {s t : State} :
    load c op put s = .next t ↔ ∃ v, readOperand c op s = .next v ∧ t = ((put s v).setNZ v).advance op :=
  andThen_map_eq_next

theorem store_eq_next {c : Config} {op : Operand} {v : Byte} {s t : State} :
    store c op v s = .next t ↔ ∃ a, address c .write op s = .next a ∧ t = (s.write a v).advance op := by
  simp [store, andThen_map_eq_next, writeOperand_eq_next]

theorem arithmetic_eq_next {c : Config} {op : Operand} {f : Byte → Byte → Bool → AluResult} {s t : State} :
    arithmetic c op f s = .next t ↔
      ∃ m, readOperand c op s = .next m ∧ t = (s.putAlu (f s.a m s.getCarry)).advance op :=
  andThen_map_eq_next

theorem logical_eq_next {c : Config} {op : Operand} {f : Byte → Byte → Byte} {s t : State} :
    logical c op f s = .next t ↔
      ∃ m, readOperand c op s = .next m ∧ t = ((s.setA (f s.a m)).setNZ (f s.a m)).advance op :=
  andThen_map_eq_next

theorem modifyMemory_eq_next {c : Config} {op : Operand} {f : Byte → Byte} {s t : State} :
    modifyMemory c op f s = .next t ↔
      ∃ m a, readOperand c op s = .next m ∧ address c .write op s = .next a ∧
        t = ((s.write a (f m)).setNZ (f m)).advance op := by
  simp only [modifyMemory, andThen_eq_next, writeOperand_eq_next, Host.Outcome.next.injEq]
  constructor
  · rintro ⟨m, hm, u, ⟨a, ha, rfl⟩, rfl⟩
    exact ⟨m, a, hm, ha, rfl⟩
  · rintro ⟨m, a, hm, ha, rfl⟩
    exact ⟨m, hm, _, ⟨a, ha, rfl⟩, rfl⟩

theorem compareWith_eq_next {c : Config} {op : Operand} {v : Byte} {s t : State} :
    compareWith c op v s = .next t ↔ ∃ m, readOperand c op s = .next m ∧ t = (s.putCompare v m).advance op :=
  andThen_map_eq_next

theorem bitWith_eq_next {c : Config} {op : Operand} {s t : State} :
    bitWith c op s = .next t ↔ ∃ m, readOperand c op s = .next m ∧ t = (s.putBitTest m).advance op :=
  andThen_map_eq_next

/-- With the official semantics nothing is refused for its mode (R130). -/
theorem unlessVariant_official {c : Config} (hc : c.indirect = .official) (op : Operand) (r : Exec) :
    unlessVariant c op r = r := by
  cases op <;> simp [unlessVariant, hc]

/-- Whatever the parameters, a guarded behaviour that answers is the behaviour itself. -/
theorem unlessVariant_eq_next {c : Config} {op : Operand} {r : Exec} {t : State}
    (h : unlessVariant c op r = .next t) : r = .next t := by
  unfold unlessVariant at h
  split at h <;> simp_all

theorem modifyRegister_eq_next {c : Config} {op : Operand} {put : State → Byte → State} {v : Byte} {s t : State}
    (h : modifyRegister c op put v s = .next t) : t = ((put s v).setNZ v).advance op := by
  simpa [eq_comm] using unlessVariant_eq_next h

theorem branch_eq_next {c : Config} {op : Operand} {taken : Bool} {s t : State} (h : branch c op taken s = .next t) :
    ∃ off, op = .rel off ∧ t = s.setPc (branchTarget taken off s) := by
  have := unlessVariant_eq_next h
  cases op <;> simp_all [raise, eq_comm]

theorem jmpWith_eq_next {c : Config} {op : Operand} {s t : State} (h : jmpWith c op s = .next t) :
    (∃ w, op = .abs w ∧ t = s.setPc w) ∨ (∃ w, op = .ind w ∧ t = s.setPc (jmpIndirectTarget c w s)) := by
  have := unlessVariant_eq_next h
  cases op <;> simp_all [raise, eq_comm]

@[simp] theorem spec_official : Config.spec.indirect = .official := rfl
@[simp] theorem spec_pageWrap : Config.spec.jmpIndirect = .nmosPageWrap := rfl
@[simp] theorem spec_table : Config.spec.table = specTable := rfl

end Sys2Proof.Machine
end

