-- ==== Sys2Proof/Laws/Engine.lean ====
section
/-! SUPPORT. What any instruction does to the fields no rule lets it write, and what one step can be
(spec/40_engine.md R120 to R132). -/

namespace Sys2Proof.Machine

/-- The fields no behaviour writes: S, RC and the flags U, B, D, I (R24, R29 to R32, R126); the memory changes by at
most one bus write. -/
structure Kept (s t : State) : Prop where
  sp    : t.sp = s.sp
  rc    : t.rc = s.rc
  inert : ∀ f ∈ [Flag.u, .b, .d, .i], t.flag f = s.flag f
  mem   : t.mem = s.mem ∨ ∃ addr v, t.mem = (s.write addr v).mem

/-- Once for all instructions and all parameters: what a completed behaviour keeps. -/
theorem execWith_kept {c : Config} {i : Instr} {s t : State} (h : execWith c i s = .next t) : Kept s t := by
  have read {r : Result Byte} {g : Byte → State} (h : ∃ v, r = .next v ∧ t = g v) (hg : ∀ v, Kept s (g v)) :
      Kept s t := by
    obtain ⟨v, _, rfl⟩ := h; exact hg v
  cases i with
  | lda | ldx | ldy => exact read (load_eq_next.mp h) fun v => ⟨rfl, rfl, by simp, .inl rfl⟩
  | sta | stx | sty =>
    obtain ⟨a, _, rfl⟩ := store_eq_next.mp h
    exact ⟨rfl, rfl, by simp, .inr ⟨a, _, rfl⟩⟩
  | adc | sbc => exact read (arithmetic_eq_next.mp h) fun v => ⟨rfl, rfl, by simp, .inl rfl⟩
  | and | ora | eor => exact read (logical_eq_next.mp h) fun v => ⟨rfl, rfl, by simp, .inl rfl⟩
  | inc | dec =>
    obtain ⟨m, a, _, _, rfl⟩ := modifyMemory_eq_next.mp h
    exact ⟨rfl, rfl, by simp, .inr ⟨a, _, rfl⟩⟩
  | inx | iny | dex | dey =>
    obtain rfl := modifyRegister_eq_next h
    exact ⟨rfl, rfl, by simp, .inl rfl⟩
  | cmp | cpx | cpy => exact read (compareWith_eq_next.mp h) fun v => ⟨rfl, rfl, by simp, .inl rfl⟩
  | bit => exact read (bitWith_eq_next.mp h) fun v => ⟨rfl, rfl, by simp, .inl rfl⟩
  | jmp =>
    obtain ⟨w, _, rfl⟩ | ⟨w, _, rfl⟩ := jmpWith_eq_next h <;> exact ⟨rfl, rfl, by simp, .inl rfl⟩
  | bcc | bcs | beq | bne | bmi | bpl | bvc | bvs =>
    obtain ⟨off, _, rfl⟩ := branch_eq_next h
    exact ⟨rfl, rfl, by simp, .inl rfl⟩
  | _ => simp [execWith, execAsl, execLsr, execRol, execRor, execBrk, execRti, execRts, execJsr, execPha, execPla,
      execPhp, execPlp, execClc, execSec, execCli, execSei, execClv, execCld, execSed, execTax, execTay, execTxa,
      execTya, execTsx, execTxs, execNop, execUndefined, unsupported, raise] at h

/-- A step that answers idles, or runs the instruction at PC and charges its cycles. -/
theorem engineStep_eq_next {t : OpcodeTable} {run : Instr → State → Exec} {s s' : State} :
    engineStep t run s = .next s' ↔
      (0 < s.rc ∧ s' = s.idle) ∨
      (s.rc = 0 ∧ ∃ u, run (s.fetchInstr t) s = .next u ∧ s' = u.charge t s.opcodeByte) := by
  unfold engineStep fetchDispatch
  by_cases h : 0 < s.rc
  · have : s.rc ≠ 0 := by omega
    simp [h, this, eq_comm]
  · have : s.rc = 0 := by omega
    simp [this, andThen_map_eq_next]

/-- A step that fails is a fetch-dispatch step whose instruction fails (R245: idle steps never fail). -/
theorem engineStep_eq_fault {t : OpcodeTable} {run : Instr → State → Exec} {s : State} {f : Fault} :
    engineStep t run s = .fault f ↔ s.rc = 0 ∧ run (s.fetchInstr t) s = .fault f := by
  unfold engineStep fetchDispatch
  by_cases h : 0 < s.rc
  · have : s.rc ≠ 0 := by omega
    simp [h, this]
  · have : s.rc = 0 := by omega
    simp [this, andThen_eq_fault]

@[simp] theorem run_zero (s : State) : run 0 s = .next s := rfl

theorem run_succ (k : Nat) (s : State) : run (k + 1) s = andThen (step s) (run k) := rfl

theorem run_add {a b : Nat} {s t : State} (h : run a s = .next t) : run (a + b) s = run b t := by
  induction a generalizing s with
  | zero => rw [Nat.zero_add]; cases h; rfl
  | succ a ih =>
    obtain ⟨u, h1, h2⟩ := andThen_eq_next.mp h
    rw [Nat.succ_add, run_succ, h1]
    exact ih h2

end Sys2Proof.Machine
end

