-- ==== Sys2Proof/Tests/Slice0.lean ====
section
/-! SUPPORT. Tests: the checks of WellFormed on ill-formed terms, words written out from the encodings of spec/41 to
spec/47, vectors of spec/95_test_vectors.md (one step each), and for every obligation with hypotheses a state and
operands that meet them. Expected values are the spec's. -/

namespace Sys2Proof.Tests

open Sys2Proof Sys2Proof.Machine Sys2Proof.Claims

/-- The registers a vector lists. -/
structure Regs where
  a : Byte
  x : Byte
  y : Byte
  p : Byte

/-- The start state of a vector: registers, PC, the bytes at PC and other bus bytes; S = 0xFF, RC = 0, the rest 0. -/
def machine (r : Regs) (pc : Word) (bytes : List Byte) (bus : List (Word × Byte)) : State :=
  let s : State := { State.reset with pc := pc, a := r.a, x := r.x, y := r.y, p := r.p }
  bus.foldl (fun t c => t.write c.1 c.2) (placeAt s pc bytes)

/-- The step answers a state with these registers, PC, RC and bus bytes, S = 0xFF. -/
def leaves (e : Exec) (r : Regs) (pc : Word) (rc : Nat) (bus : List (Word × Byte)) : Bool :=
  match e with
  | .next t => t.a == r.a && t.x == r.x && t.y == r.y && t.p == r.p && t.sp == 0xFF && t.pc == pc && t.rc == rc &&
      bus.all fun c => t.read c.1 == c.2
  | _ => false

/-- The registers after reset. -/
def zero : Regs := ⟨0, 0, 0, 0⟩

/-! ## WellFormed -/

theorem test_wf_refuses_sta_immediate : (Instr.sta (.imm 0x10)).wf = false := by decide
theorem test_wf_refuses_ldx_zero_page_x : (Instr.ldx (.zpx 0x10)).wf = false := by decide
theorem test_wf_refuses_inx_zero_page : (Instr.inx (.zp 0x10)).wf = false := by decide
theorem test_wf_refuses_bcc_absolute : (Instr.bcc (.abs 0x1234)).wf = false := by decide
theorem test_wf_refuses_jmp_zero_page : (Instr.jmp (.zp 0x10)).wf = false := by decide
theorem test_wf_refuses_jsr_implied : (Instr.jsr .imp).wf = false := by decide
theorem test_wf_refuses_undefined_lda : (Instr.undefined 0xA9).wf = false := by decide
theorem test_wf_admits_undefined : (Instr.undefined 0xFF).wf = true := by decide

/-- R96: a length that is not the mode's, a cycle count of 0, and a table without 256 positions are refused. -/
theorem test_wf_refuses_entries :
    Entry.wf ⟨.lda, .imm, 3, 2⟩ = false ∧ Entry.wf ⟨.lda, .imm, 2, 0⟩ = false ∧ OpcodeTable.wf [] = false := by
  decide

/-- R4: a vector whose second byte would lie past the top is refused. -/
theorem test_wf_refuses_vector : Config.wf { Config.spec with resetVector := 0xFFFF } = false := by decide +kernel

/-! ## Decoding

Each number is the instruction's bytes, the opcode lowest, written out from the encodings of its rule. -/

theorem test_decode_load_store :
    [decodeTableWord 16 0x80A9, decodeTableWord 16 0x42B6, decodeTableWord 24 0x1100BC, decodeTableWord 16 0x4091,
      decodeTableWord 16 0xFE96, decodeTableWord 24 0x30008C] =
    [some (.lda (.imm 0x80)), some (.ldx (.zpy 0x42)), some (.ldy (.absx 0x1100)), some (.sta (.indy 0x40)),
      some (.stx (.zpy 0xFE)), some (.sty (.abs 0x3000))] := by decide

theorem test_decode_arithmetic_logical :
    [decodeTableWord 16 0xFF69, decodeTableWord 24 0x1234F9, decodeTableWord 16 0x2021, decodeTableWord 24 0x30000D,
      decodeTableWord 16 0xF055] =
    [some (.adc (.imm 0xFF)), some (.sbc (.absy 0x1234)), some (.and (.indx 0x20)), some (.ora (.abs 0x3000)),
      some (.eor (.zpx 0xF0))] := by decide

theorem test_decode_incdec :
    [decodeTableWord 16 0x10E6, decodeTableWord 24 0x3000DE, decodeTableWord 8 0xE8, decodeTableWord 8 0xC8,
      decodeTableWord 8 0xCA, decodeTableWord 8 0x88] =
    [some (.inc (.zp 0x10)), some (.dec (.absx 0x3000)), some (.inx .imp), some (.iny .imp), some (.dex .imp),
      some (.dey .imp)] := by decide

theorem test_decode_compare :
    [decodeTableWord 16 0x40D1, decodeTableWord 16 0x10E4, decodeTableWord 24 0x1000CC, decodeTableWord 24 0x20002C] =
    [some (.cmp (.indy 0x40)), some (.cpx (.zp 0x10)), some (.cpy (.abs 0x1000)), some (.bit (.abs 0x2000))] := by
  decide

theorem test_decode_control :
    [decodeTableWord 24 0x10FF6C, decodeTableWord 16 0x8090, decodeTableWord 16 0xFEB0, decodeTableWord 16 0x05F0,
      decodeTableWord 16 0xFBD0, decodeTableWord 16 0x1030, decodeTableWord 16 0x7F10, decodeTableWord 16 0x0250,
      decodeTableWord 16 0x0270] =
    [some (.jmp (.ind 0x10FF)), some (.bcc (.rel 0x80)), some (.bcs (.rel 0xFE)), some (.beq (.rel 0x05)),
      some (.bne (.rel 0xFB)), some (.bmi (.rel 0x10)), some (.bpl (.rel 0x7F)), some (.bvc (.rel 0x02)),
      some (.bvs (.rel 0x02))] := by decide

theorem test_decode_shift_call :
    [decodeTableWord 8 0x0A, decodeTableWord 16 0x4246, decodeTableWord 24 0x12343E, decodeTableWord 16 0x4276,
      decodeTableWord 8 0x00, decodeTableWord 8 0x40, decodeTableWord 8 0x60, decodeTableWord 24 0x300020] =
    [some (.asl .acc), some (.lsr (.zp 0x42)), some (.rol (.absx 0x1234)), some (.ror (.zpx 0x42)), some (.brk .imp),
      some (.rti .imp), some (.rts .imp), some (.jsr (.abs 0x3000))] := by decide

theorem test_decode_stack_flag :
    [decodeTableWord 8 0x48, decodeTableWord 8 0x68, decodeTableWord 8 0x08, decodeTableWord 8 0x28,
      decodeTableWord 8 0x18, decodeTableWord 8 0x38, decodeTableWord 8 0x58, decodeTableWord 8 0x78,
      decodeTableWord 8 0xB8, decodeTableWord 8 0xD8, decodeTableWord 8 0xF8] =
    [some (.pha .imp), some (.pla .imp), some (.php .imp), some (.plp .imp), some (.clc .imp), some (.sec .imp),
      some (.cli .imp), some (.sei .imp), some (.clv .imp), some (.cld .imp), some (.sed .imp)] := by decide

theorem test_decode_transfer_nop_undefined :
    [decodeTableWord 8 0xAA, decodeTableWord 8 0xA8, decodeTableWord 8 0x8A, decodeTableWord 8 0x98,
      decodeTableWord 8 0xBA, decodeTableWord 8 0x9A, decodeTableWord 8 0xEA, decodeTableWord 8 0x02,
      decodeTableWord 8 0xFF] =
    [some (.tax .imp), some (.tay .imp), some (.txa .imp), some (.tya .imp), some (.tsx .imp), some (.txs .imp),
      some (.nop .imp), some (.undefined 0x02), some (.undefined 0xFF)] := by decide

/-- Too few bytes are refused by name. -/
theorem test_decode_refuses_short_input :
    decode [] = .error .noOpcode ∧ decode [0xAD, 0x34] = .error (.missingOperand 0xAD) := ⟨rfl, rfl⟩

/-! ## Vectors -/

/-- LS11. -/
theorem test_lda_ls11 :
    leaves (step (machine ⟨0x00, 0x00, 0x01, 0x00⟩ 0x0200 [0xB1, 0xFF] [(0x00FF, 0xFF), (0x0000, 0x12), (0x1300, 0x5A)]))
      ⟨0x5A, 0x00, 0x01, 0x00⟩ 0x0202 4 [] = true := by decide

/-- LS12. -/
theorem test_ldx_ls12 :
    leaves (step (machine ⟨0x00, 0x00, 0x05, 0x00⟩ 0x0200 [0xB6, 0xFF] [(0x0004, 0x80)]))
      ⟨0x00, 0x80, 0x05, 0x80⟩ 0x0202 3 [] = true := by decide

/-- LS14. -/
theorem test_ldy_ls14 :
    leaves (step (machine ⟨0x00, 0xFF, 0x00, 0x00⟩ 0x0200 [0xBC, 0x00, 0x11] [(0x11FF, 0x01)]))
      ⟨0x00, 0xFF, 0x01, 0x00⟩ 0x0203 3 [] = true := by decide

/-- LS15. -/
theorem test_sta_ls15 :
    leaves (step (machine ⟨0x5A, 0x00, 0x00, 0x83⟩ 0x0200 [0x85, 0x10] []))
      ⟨0x5A, 0x00, 0x00, 0x83⟩ 0x0202 2 [(0x0010, 0x5A)] = true := by decide

/-- LS16. -/
theorem test_sta_ls16 :
    leaves (step (machine ⟨0x77, 0x00, 0x03, 0x00⟩ 0x0200 [0x91, 0x40] [(0x0040, 0x00), (0x0041, 0x50)]))
      ⟨0x77, 0x00, 0x03, 0x00⟩ 0x0202 5 [(0x5003, 0x77)] = true := by decide

/-- LS18. -/
theorem test_stx_ls18 :
    leaves (step (machine ⟨0x00, 0xAB, 0x05, 0x00⟩ 0x0200 [0x96, 0xFE] []))
      ⟨0x00, 0xAB, 0x05, 0x00⟩ 0x0202 3 [(0x0003, 0xAB)] = true := by decide

/-- LS20. -/
theorem test_sty_ls20 :
    leaves (step (machine ⟨0x00, 0x81, 0xEE, 0x00⟩ 0x0200 [0x94, 0x80] []))
      ⟨0x00, 0x81, 0xEE, 0x00⟩ 0x0202 3 [(0x0001, 0xEE)] = true := by decide

/-- AR4. -/
theorem test_adc_ar4 :
    leaves (step (machine ⟨0x7F, 0x00, 0x00, 0x01⟩ 0x0200 [0x69, 0x00] []))
      ⟨0x80, 0x00, 0x00, 0xC0⟩ 0x0202 1 [] = true := by decide

/-- AR7. -/
theorem test_adc_ar7 :
    leaves (step (machine ⟨0x01, 0x00, 0x00, 0x08⟩ 0x0200 [0x69, 0x09] []))
      ⟨0x0A, 0x00, 0x00, 0x08⟩ 0x0202 1 [] = true := by decide

/-- AR14. -/
theorem test_sbc_ar14 :
    leaves (step (machine ⟨0x50, 0x00, 0x00, 0x01⟩ 0x0200 [0xE9, 0xB0] []))
      ⟨0xA0, 0x00, 0x00, 0xC0⟩ 0x0202 1 [] = true := by decide

/-- LG2. -/
theorem test_and_lg2 :
    leaves (step (machine ⟨0xFF, 0x00, 0x00, 0x41⟩ 0x0200 [0x29, 0x80] []))
      ⟨0x80, 0x00, 0x00, 0xC1⟩ 0x0202 1 [] = true := by decide

/-- LG4. -/
theorem test_ora_lg4 :
    leaves (step (machine ⟨0x01, 0x00, 0x00, 0x00⟩ 0x0200 [0x0D, 0x00, 0x30] [(0x3000, 0x80)]))
      ⟨0x81, 0x00, 0x00, 0x80⟩ 0x0203 3 [] = true := by decide

/-- LG6. -/
theorem test_eor_lg6 :
    leaves (step (machine ⟨0x0F, 0x00, 0x00, 0x01⟩ 0x0200 [0x49, 0xF0] []))
      ⟨0xFF, 0x00, 0x00, 0x81⟩ 0x0202 1 [] = true := by decide

/-- ID3. -/
theorem test_inc_id3 :
    leaves (step (machine ⟨0x00, 0x01, 0x00, 0x00⟩ 0x0200 [0xF6, 0xFF] [(0x0000, 0x05)]))
      ⟨0x00, 0x01, 0x00, 0x00⟩ 0x0202 5 [(0x0000, 0x06)] = true := by decide

/-- ID4. -/
theorem test_dec_id4 :
    leaves (step (machine ⟨0x00, 0x05, 0x00, 0x00⟩ 0x0200 [0xDE, 0x00, 0x30] [(0x3005, 0x00)]))
      ⟨0x00, 0x05, 0x00, 0x80⟩ 0x0203 6 [(0x3005, 0xFF)] = true := by decide

/-- ID7. -/
theorem test_inx_id7 :
    leaves (step (machine ⟨0x00, 0xFF, 0x00, 0x00⟩ 0x0200 [0xE8] []))
      ⟨0x00, 0x00, 0x00, 0x02⟩ 0x0201 1 [] = true := by decide

/-- ID8. -/
theorem test_iny_id8 :
    leaves (step (machine ⟨0x00, 0x00, 0x7F, 0x00⟩ 0x0200 [0xC8] []))
      ⟨0x00, 0x00, 0x80, 0x80⟩ 0x0201 1 [] = true := by decide

/-- ID9. -/
theorem test_dex_id9 :
    leaves (step (machine ⟨0x00, 0x01, 0x00, 0x00⟩ 0x0200 [0xCA] []))
      ⟨0x00, 0x00, 0x00, 0x02⟩ 0x0201 1 [] = true := by decide

/-- ID10. -/
theorem test_dey_id10 :
    leaves (step (machine ⟨0x00, 0x00, 0x00, 0x01⟩ 0x0200 [0x88] []))
      ⟨0x00, 0x00, 0xFF, 0x81⟩ 0x0201 1 [] = true := by decide

/-- CB5. -/
theorem test_cmp_cb5 :
    leaves (step (machine ⟨0xFF, 0x00, 0x00, 0x40⟩ 0x0200 [0xC9, 0x00] []))
      ⟨0xFF, 0x00, 0x00, 0xC1⟩ 0x0202 1 [] = true := by decide

/-- CB6. -/
theorem test_cpx_cb6 :
    leaves (step (machine ⟨0x00, 0x05, 0x00, 0x00⟩ 0x0200 [0xE4, 0x10] [(0x0010, 0x05)]))
      ⟨0x00, 0x05, 0x00, 0x03⟩ 0x0202 2 [] = true := by decide

/-- CB9. -/
theorem test_cpy_cb9 :
    leaves (step (machine ⟨0x00, 0x00, 0x80, 0x00⟩ 0x0200 [0xCC, 0x00, 0x10] [(0x1000, 0x7F)]))
      ⟨0x00, 0x00, 0x80, 0x01⟩ 0x0203 3 [] = true := by decide

/-- CB11. -/
theorem test_bit_cb11 :
    leaves (step (machine ⟨0xFF, 0x00, 0x00, 0xC1⟩ 0x0200 [0x2C, 0x00, 0x20] [(0x2000, 0x01)]))
      ⟨0xFF, 0x00, 0x00, 0x01⟩ 0x0203 3 [] = true := by decide

/-- CT4. -/
theorem test_jmp_ct4 :
    leaves (step (machine ⟨0x00, 0x00, 0x00, 0x00⟩ 0x0200 [0x6C, 0xFF, 0x10] [(0x10FF, 0x34), (0x1000, 0x12), (0x1100, 0x99)]))
      ⟨0x00, 0x00, 0x00, 0x00⟩ 0x1234 4 [] = true := by decide

/-- CT8. -/
theorem test_bcc_ct8 :
    leaves (step (machine ⟨0x00, 0x00, 0x00, 0x00⟩ 0x0200 [0x90, 0x80] []))
      ⟨0x00, 0x00, 0x00, 0x00⟩ 0x0182 1 [] = true := by decide

/-- CT10. -/
theorem test_bcs_ct10 :
    leaves (step (machine ⟨0x00, 0x00, 0x00, 0x00⟩ 0x0200 [0xB0, 0xFE] []))
      ⟨0x00, 0x00, 0x00, 0x00⟩ 0x0202 1 [] = true := by decide

/-- CT5. -/
theorem test_beq_ct5 :
    leaves (step (machine ⟨0x00, 0x00, 0x00, 0x02⟩ 0x0200 [0xF0, 0x05] []))
      ⟨0x00, 0x00, 0x00, 0x02⟩ 0x0207 1 [] = true := by decide

/-- CT7. -/
theorem test_bne_ct7 :
    leaves (step (machine ⟨0x00, 0x00, 0x00, 0x00⟩ 0x0200 [0xD0, 0xFB] []))
      ⟨0x00, 0x00, 0x00, 0x00⟩ 0x01FD 1 [] = true := by decide

/-- CT11. -/
theorem test_bmi_ct11 :
    leaves (step (machine ⟨0x00, 0x00, 0x00, 0x80⟩ 0xFFF0 [0x30, 0x10] []))
      ⟨0x00, 0x00, 0x00, 0x80⟩ 0x0002 1 [] = true := by decide

/-- CT16. -/
theorem test_bpl_ct16 :
    leaves (step (machine ⟨0x00, 0x00, 0x00, 0x00⟩ 0xFFFE [0x10, 0x00] []))
      ⟨0x00, 0x00, 0x00, 0x00⟩ 0x0000 1 [] = true := by decide

/-- CT13. -/
theorem test_bvc_ct13 :
    leaves (step (machine ⟨0x00, 0x00, 0x00, 0x40⟩ 0x0200 [0x50, 0x02] []))
      ⟨0x00, 0x00, 0x00, 0x40⟩ 0x0202 1 [] = true := by decide

/-- CT14. -/
theorem test_bvs_ct14 :
    leaves (step (machine ⟨0x00, 0x00, 0x00, 0x40⟩ 0x0200 [0x70, 0x02] []))
      ⟨0x00, 0x00, 0x00, 0x40⟩ 0x0204 1 [] = true := by decide

/-! ## Failures and idle steps -/

/-- FX1. -/
theorem test_undefined_fx1 :
    let s := machine ⟨0x12, 0, 0, 0⟩ 0x0200 [0x02] []
    hostStep s = (.failed (.invalidOpcode 0x02), s) := by decide

/-- FX3. -/
theorem test_tax_fx3 :
    let s := machine ⟨0x12, 0, 0, 0⟩ 0x0200 [0xAA] []
    hostStep s = (.failed (.unsupportedInstruction .tax), s) := by decide

/-- FX7. -/
theorem test_jsr_fx7 :
    let s := machine ⟨0, 0, 0, 0x01⟩ 0x0200 [0x20, 0x00, 0x30] []
    hostStep s = (.failed (.unsupportedInstruction .jsr), s) := by decide

/-- The spec's parameters with one byte of the table mapped otherwise. -/
def withEntry (b : Byte) (k : Kind) (m : Mode) : Config :=
  { Config.spec with table := specTable.set b.toNat (row k m 2) }

/-- FX8: a table that maps 89 to STA immediate. -/
theorem test_sta_fx8 :
    let s := machine zero 0x0200 [0x89, 0x10] []
    observe (stepWith (withEntry 0x89 .sta .imm) s) s = (.failed (.unsupportedAddressingMode .imm .write), s) := by
  decide

/-- FX9: a table that maps 80 to LDA implied. -/
theorem test_lda_fx9 :
    let s := machine zero 0x0200 [0x80] []
    observe (stepWith (withEntry 0x80 .lda .imp) s) s = (.failed (.unsupportedAddressingMode .imp .read), s) := by
  decide

/-- EN1: an idle step changes RC alone and makes no access. -/
theorem test_idle_en1 :
    let s := (machine ⟨1, 2, 3, 0x81⟩ 0x0200 [0xA9, 0x80] []).setRc 3
    hostStep s = (.ok, s.setRc 2) ∧ busTrace Config.spec s = [] := by decide

/-- EN3: RC after INC absolute,X. -/
theorem test_charge_en3 : leaves (step (machine zero 0x0200 [0xFE, 0x00, 0x30] [])) ⟨0, 0, 0, 0⟩ 0x0203 6
    [(0x3000, 0x01)] = true := by decide

/-- P7: construction on the bus of Scenario A starts at 0x0000, and its first step loads 0x80. -/
theorem test_construct_p7 :
    leaves (step (construct Config.spec [(0x0000, 0xA9), (0x0001, 0x80)])) ⟨0x80, 0, 0, 0x80⟩ 0x0002 1 [] = true := by
  decide

/-- R77: the accesses of ID4, in order. -/
theorem test_trace_id4 :
    busTrace Config.spec (machine ⟨0, 5, 0, 0⟩ 0x0200 [0xDE, 0x00, 0x30] []) =
      [.read 0x0200, .read 0x0201, .read 0x0202, .read 0x3005, .write 0x3005 0xFF] := by decide

/-- A word placed at PC is what the next step runs (log entry 2). -/
theorem test_withFetchWord : leaves (step (State.reset.withFetchWord 16 0x80A9)) ⟨0x80, 0, 0, 0x80⟩ 0x0002 1 [] = true := by
  decide

/-- R190 with the other two values of JMP_INDIRECT: CT4's bytes with `linear` and with `literal`. -/
theorem test_jmp_ct4_variants :
    let s := machine zero 0x0200 [0x6C, 0xFF, 0x10] [(0x10FF, 0x34), (0x1000, 0x12), (0x1100, 0x99)]
    leaves (stepWith { Config.spec with jmpIndirect := .linear } s) zero 0x9934 4 [] = true ∧
    leaves (stepWith { Config.spec with jmpIndirect := .literal } s) zero 0x10FF 4 [] = true := by decide

/-! ## Witnesses: what the obligations assume can be met -/

/-- A state with every register set, PC near the top, and a zero-page pointer at its last byte. -/
def sample : State :=
  machine ⟨0x12, 0xFF, 0x80, 0xC3⟩ 0xFFFE [0x91, 0x40] [(0x00FF, 0xFF), (0x0000, 0xFF), (0x1234, 0x01)]

/-- The spec's parameters, but INDIRECT_SEMANTICS = source. -/
def sourceConfig : Config := { Config.spec with indirect := .source }

theorem witness_DecodeUndoesEncode :
    (Instr.lda (.absx 0xFFFF)).wf = true ∧ (Instr.nop .imp).wf = true ∧ (Instr.undefined 0x02).wf = true := by decide

theorem witness_EncodeUndoesDecode :
    decode [0xB5, 0xFF, 0xEA] = .ok (.lda (.zpx 0xFF), [0xEA]) ∧ decode [0xFF] = .ok (.undefined 0xFF, []) := ⟨rfl, rfl⟩

/-- O8, O9: the first and the last address listed. -/
theorem witness_memories : Memory.wf [(0x0000, 0x01), (0xFFFF, 0x80)] = true ∧ Memory.wf sample.mem = true := by decide

/-- O11, O12. -/
theorem witness_resolver : Config.spec.indirect = .official ∧
    (Operand.indy 0xFF).mode ∈ [Mode.zp, .zpx, .zpy, .abs, .absx, .absy, .indx, .indy] ∧
    (Operand.ind 0xFFFF).mode ∈ [Mode.imp, .acc, .rel, .ind] := by decide

theorem witness_ResolverReadsOnlyBusAndIndexes :
    (sample.setA 0).mem = sample.mem ∧ (sample.setA 0).x = sample.x ∧ (sample.setA 0).y = sample.y ∧
      sample.setA 0 ≠ sample := by decide

/-- O14. -/
theorem witness_loads :
    InForms ldaForms (.indy 0xFF) ∧ InForms ldxForms (.zpy 0xFF) ∧ InForms ldyForms (.absx 0xFFFF) := by
  simp [InForms, ldaForms, ldxForms, ldyForms, Operand.mode]

/-- O15. -/
theorem witness_stores : Memory.wf sample.mem = true ∧
    InForms staForms (.indy 0xFF) ∧ InForms stxForms (.zpy 0xFF) ∧ InForms styForms (.zpx 0xFF) := by
  refine ⟨by decide, ?_⟩
  simp [InForms, staForms, stxForms, styForms, Operand.mode]

/-- LS16, then the load back of the round trip of R76. -/
theorem witness_StoreThenLoadReturnsTheValue :
    let s := machine ⟨0x77, 0, 3, 0⟩ 0x0200 [0x91, 0x40] [(0x0040, 0x00), (0x0041, 0x50)]
    Memory.wf s.mem = true ∧ InForms staForms (.indy 0x40) ∧ address Config.spec .write (.indy 0x40) s = .next 0x5003 ∧
    ∃ t, exec (.sta (.indy 0x40)) s = .next t ∧ (Operand.indy 0x40).mode ≠ .imm ∧
      address Config.spec .read (.indy 0x40) t = .next 0x5003 :=
  ⟨by decide, by simp [InForms, staForms, Operand.mode], rfl, _, rfl, by decide, rfl⟩

/-- O17 to O20. -/
theorem witness_arithmetic : InForms adcForms (.indx 0xFF) ∧ InForms sbcForms (.imm 0xFF) := by
  simp [InForms, adcForms, sbcForms, Operand.mode]

/-- O21, O24, O25. -/
theorem witness_logical_compare :
    InForms andForms (.indy 0x00) ∧ InForms cmpForms (.absy 0xFFFF) ∧ InForms cpxForms (.imm 0x00) ∧
      InForms cpyForms (.abs 0x1000) ∧ InForms bitForms (.zp 0xFF) := by
  simp [InForms, andForms, cmpForms, cpxForms, cpyForms, bitForms, Operand.mode]

theorem witness_MemoryIncrementAndDecrement : Memory.wf sample.mem = true ∧ InForms incForms (.absx 0xFFFF) ∧
    (Operand.rel 0x80).mode ∈ [Mode.ind, .imp, .acc, .rel] := by
  refine ⟨by decide, ?_, by decide⟩
  simp [InForms, incForms, Operand.mode]

/-- O14, O15, O17, O18, O21, O24, O35: the parameter value and the modes that are refused, and a step at such an
entry. -/
theorem witness_SourceVariantIsRefused :
    let s := machine zero 0x0200 [0xA1, 0x20] []
    sourceConfig.indirect = .source ∧ Kind.lda.implemented = true ∧ (Operand.indx 0x20).mode = .indx ∧
      (Operand.indy 0xFF).mode = .indy ∧ s.rc = 0 ∧ s.fetchInstr sourceConfig.table = Kind.lda.instr (.indx 0x20) := by
  decide

/-- O26. -/
theorem witness_JumpTargets : Config.spec.jmpIndirect = .nmosPageWrap ∧
    ({ Config.spec with jmpIndirect := .linear } : Config).jmpIndirect = .linear ∧
    ({ Config.spec with jmpIndirect := .literal } : Config).jmpIndirect = .literal := ⟨rfl, rfl, rfl⟩

theorem witness_EveryImplementedInstructionCompletes :
    Kind.sta.implemented = true ∧ (Kind.sta.instr (.indy 0x40)).wf = true ∧ sample.rc = 0 ∧
      sample.fetchInstr specTable = Kind.sta.instr (.indy 0x40) := by decide

/-- O29 to O31: the byte at PC is one of the mnemonic's. -/
theorem witness_never_run :
    (.ror, [(.acc, 0x6A, 2), (.zp, 0x66, 5), (.zpx, 0x76, 6), (.abs, 0x6E, 6), (.absx, 0x7E, 7)]) ∈ shiftAndCallForms ∧
    (machine zero 0xFFFF [0x7E] []).rc = 0 ∧ (machine zero 0xFFFF [0x7E] []).read 0xFFFF = 0x7E ∧
    (.sed, [(.imp, 0xF8, 2)]) ∈ stackAndFlagForms ∧ (machine zero 0 [0xF8] []).read 0 = 0xF8 ∧
    (.nop, [(.imp, 0xEA, 2)]) ∈ transferAndNopForms ∧ (machine zero 0 [0xEA] []).read 0 = 0xEA := by
  decide

theorem witness_UndefinedBytesFail :
    let s := machine zero 0x0200 [0xFF] []
    s.rc = 0 ∧ specTable.lookup (s.read s.pc) = none := by decide

theorem witness_UnsupportedModesNameTheFirstDirection :
    Kind.bit ∈ [Kind.lda, .ldx, .ldy, .adc, .sbc, .and, .ora, .eor, .cmp, .cpx, .cpy, .bit, .inc, .dec] ∧
    (Operand.ind 0x1234).mode ∈ [Mode.imp, .acc, .rel, .ind] ∧
    Kind.sty ∈ [Kind.sta, .stx, .sty] ∧ (Operand.imm 0x10).mode ∈ [Mode.imm, .imp, .acc, .rel, .ind] ∧
    Kind.dec ∈ [Kind.inc, .dec] ∧ (Operand.imm 0x10).mode = .imm := by decide

theorem witness_StepRunsTheDecodedInstruction :
    sample.rc = 0 ∧ decode [sample.read sample.pc, sample.read (sample.pc + 1), sample.read (sample.pc + 2)] =
      .ok (.sta (.indy 0x40), [0xFF]) ∧ (Instr.sta (.indy 0x40)).wf = true := ⟨rfl, rfl, by decide⟩

theorem witness_IdleStepCountsDown : (sample.setRc 1).rc > 0 ∧ (sample.setRc 6).rc > 0 := by decide

/-- O40: two instructions in a row, the last step of one, and a failing step. -/
theorem witness_InstructionsOccupyTheirCycles :
    let s := machine zero 0x0200 [0xA9, 0x80, 0xCA] []
    s.rc = 0 ∧ (∃ t, runInstrs 2 s = some (t, 4)) ∧ (∃ t, step s = .next t) ∧ cyclesOf specTable (s.read s.pc) = 2 ∧
      ∃ f, step State.reset = .fault f :=
  ⟨rfl, ⟨_, rfl⟩, ⟨_, rfl⟩, by decide, _, rfl⟩

/-- O41, and the failing case of O51. -/
theorem witness_FailureRepeatsUntilTheBusChanges :
    step State.reset = .fault (.unsupportedInstruction .brk) ∧ State.reset.endOfRun = true := ⟨rfl, by decide⟩

theorem witness_LaunchRefusesMalformedConfigurations :
    (withEntry 0x00 .brk .imp).table.wf = true ∧ Config.spec.resetVector ≠ 0xFFFF ∧
      OpcodeTable.wf (specTable.take 255) = false := by
  decide +kernel

/-- O45, O46: a state that meets the invariant and steps. -/
theorem witness_StepKeepsTheInvariant :
    let s := machine zero 0x0200 [0xA9, 0x80] []
    s.Inv ∧ ∃ t, step s = .next t :=
  ⟨⟨by decide, by decide, rfl, by decide, by decide, by decide, by decide⟩, _, rfl⟩

/-- O47: a state after a host write and a step. -/
theorem witness_Reachable :
    Reachable (hostAct (hostAct (construct Config.spec []) (.write 0x0000 0xE8)) .step) :=
  .act _ _ (.act _ _ (.construct [] rfl))

/-- O49. -/
theorem witness_BusTraceExplainsTheMemory :
    (∃ t, stepWith Config.spec sample = .next t) ∧ State.reset.rc = 0 ∧
      specTable.lookup (State.reset.read State.reset.pc) = some ⟨.brk, .imp, 1, 7⟩ ∧ Kind.brk.implemented = false ∧
      specTable.lookup 0xFF = none :=
  ⟨⟨_, rfl⟩, rfl, rfl, rfl, rfl⟩

/-- O50: a store into the next opcode, and a store into the instruction's own operand. -/
theorem witness_FetchSeesTheLastStore :
    let s := machine zero 0x0200 [0x8D, 0x03, 0x02] []
    let u := machine zero 0xFFFE [0x8D, 0xFF, 0xFF] []
    Memory.wf s.mem = true ∧ s.rc = 0 ∧ s.read s.pc = 0x8D ∧ s.read16 (s.pc + 1) = s.pc + 3 ∧
    Memory.wf u.mem = true ∧ u.rc = 0 ∧ u.read u.pc = 0x8D ∧ u.read16 (u.pc + 1) = u.pc + 1 := by decide

/-- O51: a self-jump that wraps over the top of memory. -/
theorem witness_SelfJumpRepeatsEveryThreeSteps :
    let s := machine zero 0xFFFE [0x4C, 0xFE, 0xFF] []
    s.rc = 0 ∧ s.selfJump = true ∧ s.endOfRun = true := by decide

end Sys2Proof.Tests
end

section
/-! PROOF. The machine without parameters is the configured machine at the spec's values (spec/00_scope.md R2 to R5), so
that a fact about every configuration is a fact about `exec` and `step`. -/

namespace Sys2Proof.Machine

/-- The two dispatches are written apart and agree arm by arm: each `execX` is its `xWith Config.spec`, and an
instruction without a behaviour takes no parameter. -/
theorem exec_eq_execWith_spec : exec = execWith Config.spec := by
  funext i s
  cases i <;> rfl

/-- The engine is one definition for both machines, so only the instruction it runs has to be compared. -/
theorem step_eq_stepWith_spec : step = stepWith Config.spec := by
  funext s
  rw [step, stepWith, exec_eq_execWith_spec]

/-- Settles O39, from the agreement of the two dispatches and of the two steps. -/
theorem execIsTheSpecParameters : Obligations.ExecIsTheSpecParameters :=
  ⟨fun i s => congrFun₂ exec_eq_execWith_spec i s, fun s => congrFun step_eq_stepWith_spec s⟩

end Sys2Proof.Machine
end

section
/-! PROOF. The operations on single flags (spec/10_state.md R35, R36). -/

namespace Sys2Proof.Machine

/-- Settles O7: each named flag write is a `putFlag`, and `putFlag` writes one bit of P and no other field. -/
theorem flagWritesTouchOneBit : Obligations.FlagWritesTouchOneBit :=
  ⟨fun s f g b => s.flag_putFlag f g b,
   fun s v g => ⟨s.flag_setNegative v g, s.flag_setZero v g⟩,
   fun s b g => ⟨s.flag_setCarry b g, s.flag_setOverflow b g⟩,
   fun _ => rfl, fun _ _ _ => rfl⟩

end Sys2Proof.Machine
end

section
/-! PROOF. The invariant of the block (spec/10_state.md R24, R29 to R32, R37; spec/20_memory.md R54): construction
establishes it, and bus writes, completed behaviours, the engine's RC updates and the host's moves keep it. -/

namespace Sys2Proof.Machine

/-- The longest instruction of the map takes 7 cycles (R97). -/
theorem cyclesOf_specTable_le (b : Byte) : cyclesOf specTable b ≤ 7 := by
  have cells : specTable.all (fun c => c.all fun e => decide (e.cycles ≤ 7)) = true := by
    simp only [specTable, List.all_append]
    decide
  unfold cyclesOf
  split
  next e he =>
    have hmem : some e ∈ specTable := List.mem_of_getElem? (Option.join_eq_some_iff.mp he)
    simpa using List.all_eq_true.mp cells _ hmem
  next => exact Nat.zero_le 7

namespace State.Inv

theorem construct (c : Config) {bus : Memory} (hbus : Memory.wf bus = true) : (Machine.construct c bus).Inv :=
  have clear (f : Flag) : getFlag 0x00 f = false := BitVec.getLsbD_zero
  ⟨hbus, Nat.zero_le 6, rfl, clear .u, clear .b, clear .d, clear .i⟩

theorem setRc {s : State} (hs : s.Inv) {n : Nat} (hn : n ≤ 6) : (s.setRc n).Inv := { hs with rcMax := hn }

theorem idle {s : State} (hs : s.Inv) : s.idle.Inv := hs.setRc (Nat.le_trans (Nat.sub_le s.rc 1) hs.rcMax)

theorem charge {s : State} (hs : s.Inv) (b : Byte) : (s.charge specTable b).Inv :=
  hs.setRc (Nat.sub_le_sub_right (cyclesOf_specTable_le b) 1)

theorem write {s : State} (hs : s.Inv) (addr : Word) (v : Byte) : (s.write addr v).Inv :=
  { hs with memWf := State.wf_write hs.memWf addr v }

/-- A behaviour that keeps S, RC and the inert flags, and makes at most one bus write, keeps the invariant. -/
theorem of_kept {s t : State} (hs : s.Inv) (h : Kept s t) : t.Inv where
  memWf := by
    obtain hmem | ⟨addr, v, hmem⟩ := h.mem
    · exact hmem ▸ hs.memWf
    · exact hmem ▸ State.wf_write hs.memWf addr v
  rcMax := h.rc ▸ hs.rcMax
  spFull := h.sp.trans hs.spFull
  clearU := (h.inert .u (by decide)).trans hs.clearU
  clearB := (h.inert .b (by decide)).trans hs.clearB
  clearD := (h.inert .d (by decide)).trans hs.clearD
  clearI := (h.inert .i (by decide)).trans hs.clearI

theorem step {s t : State} (hs : s.Inv) (h : Machine.step s = .next t) : t.Inv := by
  rw [step_eq_stepWith_spec] at h
  obtain ⟨_, rfl⟩ | ⟨_, u, hu, rfl⟩ := engineStep_eq_next.mp h
  · exact hs.idle
  · exact (hs.of_kept (execWith_kept hu)).charge s.opcodeByte

/-- A failing or refused step leaves the host the state before it (R246). -/
theorem hostAct {s : State} (hs : s.Inv) : (m : HostMove) → (Machine.hostAct s m).Inv
  | .write addr v => hs.write addr v
  | .step => by
    unfold Machine.hostAct hostStep
    cases h : Machine.step s with
    | next t => exact hs.step h
    | fault f => exact hs
    | refused w => exact hs

end State.Inv

/-- Settles O46: an idle step lowers RC, and a completed behaviour keeps all but RC, which is set to at most 7 - 1. -/
theorem stepKeepsTheInvariant : Obligations.StepKeepsTheInvariant := fun _ _ hs h => hs.step h

/-- Settles O47, by induction on the host's moves from construction. -/
theorem reachableStatesKeepStackPointerAndInertFlags :
    Obligations.ReachableStatesKeepStackPointerAndInertFlags := by
  intro s h
  induction h with
  | construct bus hbus => exact .construct Config.spec hbus
  | act s m _ ih => exact ih.hostAct m

/-- Settles O45: the reset state is construction on the empty bus. -/
theorem resetSatisfiesTheInvariant : Obligations.ResetSatisfiesTheInvariant :=
  .construct Config.spec (bus := []) rfl

end Sys2Proof.Machine
end

section
/-! PROOF. S and the flags U, B, D, I influence nothing (spec/10_state.md R24, R29 to R32, R36): a change of them
commutes with the state's operations, so with every behaviour, so with the step. -/

namespace Sys2Proof.Machine

open Sys2Proof.Claims

/-- A change of P that the four flags the behaviours use do not see: they read as before, and writing one of them
commutes with the change. -/
structure OnInertFlags (k : Byte → Byte) : Prop where
  getFlag : ∀ {g : Flag}, g ∈ [Flag.n, .v, .z, .c] → ∀ p, getFlag (k p) g = getFlag p g
  setFlag : ∀ {g : Flag}, g ∈ [Flag.n, .v, .z, .c] → ∀ p b, setFlag (k p) g b = k (setFlag p g b)

theorem onInertFlags_id : OnInertFlags id := ⟨fun _ _ => rfl, fun _ _ _ => rfl⟩

/-- A status byte is its eight flags (R26). -/
theorem eq_of_getFlag_eq {p r : Byte} (h : ∀ g, getFlag p g = getFlag r g) : p = r := by
  refine BitVec.eq_of_getLsbD_eq fun n hn => ?_
  interval_cases n
  exacts [h .c, h .z, h .i, h .d, h .b, h .u, h .v, h .n]

theorem getFlag_xor_and (p q m : Byte) (g : Flag) :
    getFlag (p ^^^ (q &&& m)) g = (getFlag p g ^^ (getFlag q g && getFlag m g)) := by
  simp [getFlag]

/-- The mask 0x3C holds none of N, V, Z and C (R26). -/
theorem onInertFlags_xor (q : Byte) : OnInertFlags (· ^^^ (q &&& 0x3C)) := by
  have mask : ∀ g ∈ [Flag.n, .v, .z, .c], getFlag 0x3C#8 g = false := by decide
  refine ⟨fun hg p => by simp [getFlag_xor_and, mask _ hg], fun {g} hg p b => eq_of_getFlag_eq fun g' => ?_⟩
  simp only [getFlag_setFlag, getFlag_xor_and]
  by_cases h : g' = g
  · simp [h, mask g hg]
  · simp [h]

/-- Change S by `f` and P by `k`. -/
def State.mapInert (f k : Byte → Byte) (s : State) : State := { s with sp := f s.sp, p := k s.p }

namespace State

variable (f k : Byte → Byte) (s : State)

@[simp] theorem mapInert_a : (s.mapInert f k).a = s.a := rfl
@[simp] theorem mapInert_x : (s.mapInert f k).x = s.x := rfl
@[simp] theorem mapInert_y : (s.mapInert f k).y = s.y := rfl
@[simp] theorem mapInert_pc : (s.mapInert f k).pc = s.pc := rfl
@[simp] theorem mapInert_rc : (s.mapInert f k).rc = s.rc := rfl

@[simp] theorem setA_mapInert (v : Byte) : (s.mapInert f k).setA v = (s.setA v).mapInert f k := rfl
@[simp] theorem setX_mapInert (v : Byte) : (s.mapInert f k).setX v = (s.setX v).mapInert f k := rfl
@[simp] theorem setY_mapInert (v : Byte) : (s.mapInert f k).setY v = (s.setY v).mapInert f k := rfl
@[simp] theorem setPc_mapInert (w : Word) : (s.mapInert f k).setPc w = (s.setPc w).mapInert f k := rfl
@[simp] theorem advance_mapInert (op : Operand) : (s.mapInert f k).advance op = (s.advance op).mapInert f k := rfl
@[simp] theorem write_mapInert (addr : Word) (v : Byte) :
    (s.mapInert f k).write addr v = (s.write addr v).mapInert f k := rfl
@[simp] theorem idle_mapInert : (s.mapInert f k).idle = s.idle.mapInert f k := rfl
@[simp] theorem charge_mapInert (t : OpcodeTable) (b : Byte) :
    (s.mapInert f k).charge t b = (s.charge t b).mapInert f k := rfl

@[simp] theorem opcodeByte_mapInert : (s.mapInert f k).opcodeByte = s.opcodeByte := rfl
@[simp] theorem fetchInstr_mapInert (t : OpcodeTable) : (s.mapInert f k).fetchInstr t = s.fetchInstr t := rfl

end State

@[simp] theorem address_mapInert (f k : Byte → Byte) (c : Config) (dir : Direction) (op : Operand) (s : State) :
    address c dir op (s.mapInert f k) = address c dir op s :=
  address_of_fields rfl rfl rfl c dir op

@[simp] theorem readOperand_mapInert (f k : Byte → Byte) (c : Config) (op : Operand) (s : State) :
    readOperand c op (s.mapInert f k) = readOperand c op s :=
  readOperand_of_fields rfl rfl rfl c op

@[simp] theorem jmpIndirectTarget_mapInert (f k : Byte → Byte) (c : Config) (w : Word) (s : State) :
    jmpIndirectTarget c w (s.mapInert f k) = jmpIndirectTarget c w s := rfl

@[simp] theorem onNext_next (g : State → State) (s : State) : onNext g (.next s) = .next (g s) := rfl
@[simp] theorem onNext_raise (g : State → State) (e : Fault) : onNext g (raise e) = raise e := rfl

@[simp] theorem onNext_andThen {α : Type} (g : State → State) (r : Result α) (h : α → Exec) :
    onNext g (andThen r h) = andThen r fun v => onNext g (h v) := by
  cases r <;> rfl

@[simp] theorem andThen_onNext {α : Type} (g : State → State) (r : Exec) (h : State → Result α) :
    andThen (onNext g r) h = andThen r fun t => h (g t) := by
  cases r <;> rfl

theorem andThen_assoc {α β γ : Type} (r : Result α) (h : α → Result β) (l : β → Result γ) :
    andThen (andThen r h) l = andThen r fun v => andThen (h v) l := by
  cases r <;> rfl

@[simp] theorem onNext_unlessVariant (g : State → State) (c : Config) (op : Operand) (r : Exec) :
    onNext g (unlessVariant c op r) = unlessVariant c op (onNext g r) := by
  unfold unlessVariant
  split <;> rfl

@[simp] theorem store_mapInert (f k : Byte → Byte) (c : Config) (op : Operand) (v : Byte) (s : State) :
    store c op v (s.mapInert f k) = onNext (State.mapInert f k) (store c op v s) := by
  simp [store, writeOperand, andThen_assoc]

@[simp] theorem branch_mapInert (f k : Byte → Byte) (c : Config) (op : Operand) (taken : Bool) (s : State) :
    branch c op taken (s.mapInert f k) = onNext (State.mapInert f k) (branch c op taken s) := by
  cases op <;> simp [branch, branchTarget]

@[simp] theorem jmpWith_mapInert (f k : Byte → Byte) (c : Config) (op : Operand) (s : State) :
    jmpWith c op (s.mapInert f k) = onNext (State.mapInert f k) (jmpWith c op s) := by
  cases op <;> simp [jmpWith]

section Behaviours

variable {f k : Byte → Byte} (hk : OnInertFlags k) (c : Config) (op : Operand) (s : State)
include hk

theorem flag_mapInert {g : Flag} (hg : g ∈ [Flag.n, .v, .z, .c]) : (s.mapInert f k).flag g = s.flag g :=
  hk.getFlag hg s.p

theorem putFlag_mapInert {g : Flag} (hg : g ∈ [Flag.n, .v, .z, .c]) (b : Bool) :
    (s.mapInert f k).putFlag g b = (s.putFlag g b).mapInert f k :=
  congrArg (fun p => { s with sp := f s.sp, p := p }) (hk.setFlag hg s.p b)

theorem setNZ_mapInert (v : Byte) : (s.mapInert f k).setNZ v = (s.setNZ v).mapInert f k := by
  simp [State.setNZ, State.setNegative, State.setZero, putFlag_mapInert hk]

theorem putAlu_mapInert (r : AluResult) : (s.mapInert f k).putAlu r = (s.putAlu r).mapInert f k := by
  simp [State.putAlu, State.setCarry, State.setOverflow, putFlag_mapInert hk, setNZ_mapInert hk]

theorem putCompare_mapInert (v m : Byte) : (s.mapInert f k).putCompare v m = (s.putCompare v m).mapInert f k := by
  simp [State.putCompare, State.setCarry, putFlag_mapInert hk, setNZ_mapInert hk]

theorem putBitTest_mapInert (m : Byte) : (s.mapInert f k).putBitTest m = (s.putBitTest m).mapInert f k := by
  simp [State.putBitTest, State.setZero, putFlag_mapInert hk]

theorem load_mapInert {put : State → Byte → State}
    (hput : ∀ v, put (s.mapInert f k) v = (put s v).mapInert f k) :
    load c op put (s.mapInert f k) = onNext (State.mapInert f k) (load c op put s) := by
  simp [load, hput, setNZ_mapInert hk]

theorem arithmetic_mapInert (alu : Byte → Byte → Bool → AluResult) :
    arithmetic c op alu (s.mapInert f k) = onNext (State.mapInert f k) (arithmetic c op alu s) := by
  simp [arithmetic, State.getCarry, flag_mapInert hk, putAlu_mapInert hk]

theorem logical_mapInert (g : Byte → Byte → Byte) :
    logical c op g (s.mapInert f k) = onNext (State.mapInert f k) (logical c op g s) := by
  simp [logical, setNZ_mapInert hk]

theorem modifyMemory_mapInert (g : Byte → Byte) :
    modifyMemory c op g (s.mapInert f k) = onNext (State.mapInert f k) (modifyMemory c op g s) := by
  simp [modifyMemory, writeOperand, andThen_assoc, setNZ_mapInert hk]

theorem modifyRegister_mapInert {put : State → Byte → State} (v : Byte)
    (hput : put (s.mapInert f k) v = (put s v).mapInert f k) :
    modifyRegister c op put v (s.mapInert f k) = onNext (State.mapInert f k) (modifyRegister c op put v s) := by
  simp [modifyRegister, hput, setNZ_mapInert hk]

theorem compareWith_mapInert (v : Byte) :
    compareWith c op v (s.mapInert f k) = onNext (State.mapInert f k) (compareWith c op v s) := by
  simp [compareWith, putCompare_mapInert hk]

theorem bitWith_mapInert : bitWith c op (s.mapInert f k) = onNext (State.mapInert f k) (bitWith c op s) := by
  simp [bitWith, putBitTest_mapInert hk]

/-- Once for all instructions and all parameters: a change of S and the inert flags passes through unread. -/
theorem execWith_mapInert (i : Instr) :
    execWith c i (s.mapInert f k) = onNext (State.mapInert f k) (execWith c i s) := by
  cases i with
  | lda op | ldx op | ldy op => exact load_mapInert hk c op s fun _ => rfl
  | sta op | stx op | sty op => exact store_mapInert f k c op _ s
  | adc op | sbc op => exact arithmetic_mapInert hk c op s _
  | and op | ora op | eor op => exact logical_mapInert hk c op s _
  | inc op | dec op => exact modifyMemory_mapInert hk c op s _
  | inx op | iny op | dex op | dey op => exact modifyRegister_mapInert hk c op s _ rfl
  | cmp op | cpx op | cpy op => exact compareWith_mapInert hk c op s _
  | bit op => exact bitWith_mapInert hk c op s
  | jmp op => exact jmpWith_mapInert f k c op s
  | bcc op | bcs op | beq op | bne op | bmi op | bpl op | bvc op | bvs op =>
    simp [execWith, bccWith, bcsWith, beqWith, bneWith, bmiWith, bplWith, bvcWith, bvsWith, flag_mapInert hk]
  | _ => rfl

end Behaviours

/-- The engine reads RC and the bus, so it passes through what the instruction passes through. -/
theorem engineStep_mapInert {f k : Byte → Byte} {run : Instr → State → Exec}
    (hrun : ∀ i s, run i (s.mapInert f k) = onNext (State.mapInert f k) (run i s)) (t : OpcodeTable) (s : State) :
    engineStep t run (s.mapInert f k) = onNext (State.mapInert f k) (engineStep t run s) := by
  unfold engineStep fetchDispatch
  by_cases h : 0 < s.rc
  · simp [h]
  · simp [h, hrun]

/-- Settles O48: both changes, of S and of the inert flags, are a `State.mapInert`. -/
theorem stackPointerAndInertFlagsAreNeverRead : Obligations.StackPointerAndInertFlagsAreNeverRead := by
  unfold Obligations.StackPointerAndInertFlagsAreNeverRead
  rw [step_eq_stepWith_spec, exec_eq_execWith_spec]
  have hexec {f k : Byte → Byte} (hk : OnInertFlags k) (i : Instr) (s : State) :=
    execWith_mapInert (f := f) hk Config.spec s i
  have hstep {f k : Byte → Byte} (hk : OnInertFlags k) := engineStep_mapInert (f := f) (hexec hk) specTable
  exact ⟨fun i s v q => ⟨hexec (f := fun _ => v) onInertFlags_id i s, hexec (f := id) (onInertFlags_xor q) i s⟩,
    fun s v q => ⟨hstep (f := fun _ => v) onInertFlags_id s, hstep (f := id) (onInertFlags_xor q) s⟩⟩

end Sys2Proof.Machine
end

section
/-! PROOF. The bus is a plain memory (spec/20_memory.md R50 to R54): any launch contents have a canonical form, the form
is unique, and the two word reads are little-endian and wrap. -/

namespace Sys2Proof.Machine

namespace Memory

/-- The memory that reads as `contents` below `n` and as `blank` from there on, written byte by byte. -/
def ofContents (contents : Nat → Byte) : Nat → Memory
  | 0 => []
  | n + 1 => write (ofContents contents n) n (contents n)

theorem wf_ofContents (contents : Nat → Byte) {n : Nat} (hn : n ≤ 65536) : wf (ofContents contents n) = true := by
  induction n with
  | zero => rfl
  | succ n ih => exact wf_write (ih (Nat.le_of_succ_le hn)) hn (contents n)

theorem read_ofContents (contents : Nat → Byte) {n a : Nat} (hn : n ≤ 65536) (ha : a < n) :
    read (ofContents contents n) a = contents a := by
  induction n with
  | zero => exact absurd ha (Nat.not_lt_zero a)
  | succ n ih =>
    have hn' : n ≤ 65536 := Nat.le_of_succ_le hn
    by_cases h : a = n
    · subst h
      exact read_write_same (wf_ofContents contents hn') a (contents a)
    · exact (read_write_other _ _ h).trans (ih hn' (by omega))

theorem read_cons_same (k : Nat) (v : Byte) (rest : Memory) : read ((k, v) :: rest) k = v := if_pos rfl

theorem read_cons_other {k a : Nat} (h : k ≠ a) (v : Byte) (rest : Memory) : read ((k, v) :: rest) a = read rest a :=
  if_neg h

/-- A canonical memory lists nothing before its head, so an address with a byte lies at the head or after it. -/
theorem head_le_of_read_ne_blank {lo k a : Nat} {v : Byte} {rest : Memory} (hm : wfFrom lo ((k, v) :: rest) = true)
    (ha : read ((k, v) :: rest) a ≠ blank) : k ≤ a := by
  obtain ⟨_, hk, hv, hrest⟩ := wfFrom_cons.mp hm
  by_contra hlt
  exact ha (read_below (wfFrom_cons.mpr ⟨le_refl k, hk, hv, hrest⟩) (Nat.lt_of_not_le hlt))

/-- Two canonical memories that read the same list the same: their heads cannot differ, because the lower head would be
a byte that only one of them has. -/
theorem eq_of_read_eq {lo : Nat} {m n : Memory} (hm : wfFrom lo m = true) (hn : wfFrom lo n = true)
    (h : ∀ a < 65536, read m a = read n a) : m = n := by
  induction m generalizing lo n with
  | nil =>
    cases n with
    | nil => rfl
    | cons d rest =>
      obtain ⟨_, hk, hv, _⟩ := wfFrom_cons.mp hn
      exact absurd ((read_cons_same d.1 d.2 rest).symm.trans (h d.1 hk).symm) hv
  | cons c rest ih =>
    obtain ⟨k, v⟩ := c
    obtain ⟨_, hk, hv, hrest⟩ := wfFrom_cons.mp hm
    have hreadk := (h k hk).symm.trans (read_cons_same k v rest)
    cases n with
    | nil => exact absurd hreadk.symm hv
    | cons d rest' =>
      obtain ⟨k', v'⟩ := d
      obtain ⟨_, hk', hv', hrest'⟩ := wfFrom_cons.mp hn
      have hreadk' := (h k' hk').trans (read_cons_same k' v' rest')
      obtain rfl : k = k' := Nat.le_antisymm (head_le_of_read_ne_blank hm (hreadk' ▸ hv'))
        (head_le_of_read_ne_blank hn (hreadk ▸ hv))
      obtain rfl : v = v' := hreadk.symm.trans (read_cons_same k v' rest')
      have htails : ∀ a < 65536, read rest a = read rest' a := by
        intro a ha
        by_cases hka : k = a
        · have hlt : a < k + 1 := by omega
          rw [read_below hrest hlt, read_below hrest' hlt]
        · simpa [read_cons_other hka] using h a ha
      rw [ih hrest hrest' htails]

end Memory

/-- Settles O8: the write rules of the bus, and the launch contents written byte by byte. -/
theorem busIsAPlainMemory : Obligations.BusIsAPlainMemory := by
  refine ⟨fun s addr v hm => ⟨⟨State.read_write_same hm addr v, fun b => State.read_write_other s v⟩, rfl⟩,
    fun contents => ⟨Memory.ofContents (fun a => contents (BitVec.ofNat 16 a)) 65536,
      Memory.wf_ofContents _ le_rfl, fun a => ?_⟩⟩
  rw [Memory.read_ofContents _ le_rfl a.isLt, BitVec.ofNat_toNat, BitVec.setWidth_eq]

/-- Settles O9: writes keep the canonical form, and it is determined by the reads. -/
theorem equalReadsMeanEqualMemories : Obligations.EqualReadsMeanEqualMemories :=
  ⟨fun _ a v hm => Memory.wf_write hm a.isLt v,
   fun _ _ hm hn h => Memory.eq_of_read_eq hm hn fun a ha => h (BitVec.ofNatLT a ha)⟩

/-! ## Word reads -/

theorem zext16_toNat (b : Byte) : (zext16 b).toNat = b.toNat :=
  BitVec.toNat_setWidth_of_le (by decide)

theorem State.read_eq (s : State) (addr : Word) : s.read addr = Memory.read s.mem addr.toNat := rfl

theorem State.read16_toNat (s : State) (addr : Word) : (s.read16 addr).toNat =
    (Memory.read s.mem ((addr.toNat + 1) % 65536)).toNat * 256 + (Memory.read s.mem addr.toNat).toNat := by
  rw [State.read16, wordOf_toNat, State.read_eq, State.read_eq, BitVec.toNat_add]
  rfl

theorem State.read16zp_toNat (s : State) (z : Byte) : (s.read16zp z).toNat =
    (Memory.read s.mem ((z.toNat + 1) % 256)).toNat * 256 + (Memory.read s.mem z.toNat).toNat := by
  rw [State.read16zp, wordOf_toNat, State.read_eq, State.read_eq, zext16_toNat, zext16_toNat, BitVec.toNat_add]
  rfl

/-- Settles O10: both word reads are `hi:lo` of two byte reads whose second address wraps at its own width. -/
theorem wordReadsAreLittleEndianAndWrap : Obligations.WordReadsAreLittleEndianAndWrap :=
  ⟨State.read16_toNat, State.read16zp_toNat⟩

end Sys2Proof.Machine
end

section
/-! PROOF. The addressing resolver (spec/20_memory.md R60 to R75): the address of each mode, what its reads and writes
answer, and what INDIRECT_SEMANTICS = source refuses. -/

namespace Sys2Proof.Machine

/-! ## Effective addresses -/

theorem zext16_add_toNat (z i : Byte) : (zext16 (z + i)).toNat = (z.toNat + i.toNat) % 256 := by
  rw [zext16_toNat, BitVec.toNat_add]

theorem add_zext16_toNat (w : Word) (i : Byte) : (w + zext16 i).toNat = (w.toNat + i.toNat) % 65536 := by
  rw [BitVec.toNat_add, zext16_toNat]

theorem address_indx {c : Config} (hc : c.indirect = .official) (dir : Direction) (z : Byte) (s : State) :
    address c dir (.indx z) s = .next (s.read16zp (z + s.x)) := by
  simp [address, hc]

theorem address_indy {c : Config} (hc : c.indirect = .official) (dir : Direction) (z : Byte) (s : State) :
    address c dir (.indy z) s = .next (s.read16zp z + zext16 s.y) := by
  simp [address, hc]

/-- Settles O11: the indexes are added at the width of the mode, 8 bits in zero page and 16 elsewhere. -/
theorem effectiveAddressOfEachMode : Obligations.EffectiveAddressOfEachMode := by
  intro c dir z w s hc
  refine ⟨⟨_, rfl, zext16_toNat z⟩, ⟨_, rfl, zext16_add_toNat z s.x⟩, ⟨_, rfl, zext16_add_toNat z s.y⟩, ⟨_, rfl, rfl⟩,
    ⟨_, rfl, add_zext16_toNat w s.x⟩, ⟨_, rfl, add_zext16_toNat w s.y⟩,
    ⟨_, address_indx hc dir z s, ?_⟩, ⟨_, address_indy hc dir z s, ?_⟩⟩
  · rw [State.read16zp_toNat, BitVec.toNat_add, Nat.mod_add_mod]
  · rw [add_zext16_toNat, State.read16zp_toNat]

/-- Settles O13: the resolver's answers are functions of the bus, X and Y. -/
theorem resolverReadsOnlyBusAndIndexes : Obligations.ResolverReadsOnlyBusAndIndexes :=
  fun c dir op _ _ hm hx hy => ⟨address_of_fields hm hx hy c dir op, readOperand_of_fields hm hx hy c op⟩

theorem hasAddress_iff {m : Mode} :
    hasAddress m = true ↔ m ∈ [Mode.zp, .zpx, .zpy, .abs, .absx, .absy, .indx, .indy] := by
  cases m <;> decide

/-- Reading through a mode that gives an address answers the byte there (R74). -/
theorem readOperand_of_address {c : Config} {op : Operand} {s : State} {a : Word} (ha : address c .read op s = .next a) :
    readOperand c op s = .next (s.read a) := by
  have hi : op.mode ≠ .imm := fun h => by
    have hfail := address_fails (c := c) (by rw [h]; rfl) .read s
    rw [ha] at hfail
    cases hfail
  rw [readOperand_eq hi, ha, andThen_next]

/-- Writing through a mode that gives an address stores one byte there (R75). -/
theorem writeOperand_of_address {c : Config} {op : Operand} {s : State} {a : Word}
    (ha : address c .write op s = .next a) (v : Byte) : writeOperand c op v s = .next (s.write a v) :=
  writeOperand_eq_next.mpr ⟨a, ha, rfl⟩

theorem writeOperand_fails {c : Config} {op : Operand} (h : hasAddress op.mode = false) (v : Byte) (s : State) :
    writeOperand c op v s = .fault (.unsupportedAddressingMode op.mode .write) := by
  rw [writeOperand, address_fails h, andThen_fault]

theorem readOperand_fails {c : Config} {op : Operand} (hi : op.mode ≠ .imm) (h : hasAddress op.mode = false) (s : State) :
    readOperand c op s = .fault (.unsupportedAddressingMode op.mode .read) := by
  rw [readOperand_eq hi, address_fails h, andThen_fault]

/-! ## INDIRECT_SEMANTICS = source (R71, R72, R130) -/

section SourceVariant

variable {c : Config} (hc : c.indirect = .source) {op : Operand} (hop : op.mode = .indx ∨ op.mode = .indy) (s : State)
include hc hop

theorem address_refused (dir : Direction) : address c dir op s = .refused (.indirectVariant op.mode) := by
  cases op <;> simp_all [Operand.mode, address]

theorem readOperand_refused : readOperand c op s = .refused (.indirectVariant op.mode) := by
  have hi : op.mode ≠ .imm := by rcases hop with h | h <;> rw [h] <;> decide
  rw [readOperand_eq hi, address_refused hc hop, andThen_refused]

theorem writeOperand_refused (v : Byte) : writeOperand c op v s = .refused (.indirectVariant op.mode) := by
  rw [writeOperand, address_refused hc hop, andThen_refused]

theorem unlessVariant_refused (r : Exec) : unlessVariant c op r = .refused (.indirectVariant op.mode) := by
  cases op <;> simp_all [Operand.mode, unlessVariant]

/-- A behaviour asks the resolver first, or is guarded by `unlessVariant`. -/
theorem execWith_refused {k : Kind} (hk : k.implemented = true) :
    execWith c (k.instr op) s = .refused (.indirectVariant op.mode) := by
  have read {α : Type} (h : Byte → Result α) :
      andThen (readOperand c op s) h = .refused (.indirectVariant op.mode) := by
    rw [readOperand_refused hc hop, andThen_refused]
  have write (v : Byte) (h : State → Exec) :
      andThen (writeOperand c op v s) h = .refused (.indirectVariant op.mode) := by
    rw [writeOperand_refused hc hop, andThen_refused]
  cases k with
  | lda | ldx | ldy | adc | sbc | and | ora | eor | cmp | cpx | cpy | bit | inc | dec => exact read _
  | sta | stx | sty => exact write _ _
  | inx | iny | dex | dey | jmp | bcc | bcs | beq | bne | bmi | bpl | bvc | bvs =>
    exact unlessVariant_refused hc hop _
  | _ => cases hk

end SourceVariant

theorem stepWith_fetch {c : Config} {s : State} (h : s.rc = 0) : stepWith c s = fetchDispatch c.table (execWith c) s := by
  rw [stepWith, engineStep, if_neg (by omega)]

/-- Settles O35: the instruction is refused, so the step that runs it is. -/
theorem sourceVariantIsRefused : Obligations.SourceVariantIsRefused := by
  intro c k op s hc hk hop
  have hexec := execWith_refused hc hop s hk
  refine ⟨hexec, fun hrc hfetch => ?_⟩
  rw [stepWith_fetch hrc, fetchDispatch, hfetch, hexec, andThen_refused]

end Sys2Proof.Machine
end

section
/-! PROOF. The canonical bus accesses of a step (spec/20_memory.md R75, R77): reads, then at most one write, which
accounts for the memory after the step. -/

namespace Sys2Proof.Machine

/-- The accesses are reads alone. -/
def OnlyReads (l : List BusAccess) : Prop := ∃ reads : List Word, l = reads.map .read

theorem OnlyReads.append {l k : List BusAccess} (hl : OnlyReads l) (hk : OnlyReads k) : OnlyReads (l ++ k) := by
  obtain ⟨r, rfl⟩ := hl
  obtain ⟨r', rfl⟩ := hk
  exact ⟨r ++ r', List.map_append.symm⟩

theorem onlyReads_nil : OnlyReads [] := ⟨[], rfl⟩

theorem onlyReads_pair (a b : Word) : OnlyReads [.read a, .read b] := ⟨[a, b], rfl⟩

/-- Reads leave the bus contents alone (R54). -/
theorem OnlyReads.foldl_apply {l : List BusAccess} (hl : OnlyReads l) (m : Memory) : l.foldl BusAccess.apply m = m := by
  obtain ⟨r, rfl⟩ := hl
  induction r with
  | nil => rfl
  | cons a r ih => exact ih

theorem operandReads_onlyReads (m : Mode) (s : State) : OnlyReads (operandReads m s) :=
  ⟨[s.pc + 1, s.pc + 2].take (m.length - 1), by rw [List.map_take]; rfl⟩

theorem pointerReads_onlyReads (c : Config) (k : Kind) (op : Operand) (s : State) :
    OnlyReads (pointerReads c k op s) := by
  unfold pointerReads
  split
  next =>
    split
    exacts [onlyReads_pair _ _, onlyReads_nil]
  next =>
    split
    exacts [onlyReads_pair _ _, onlyReads_nil]
  next =>
    split
    exacts [onlyReads_pair _ _, onlyReads_pair _ _, onlyReads_nil]
  next => exact onlyReads_nil

theorem dataReads_onlyReads (c : Config) (k : Kind) (op : Operand) (s : State) : OnlyReads (dataReads c k op s) := by
  unfold dataReads
  split
  next a _ _ => exact ⟨[a], rfl⟩
  next => exact ⟨[], rfl⟩

/-- A behaviour writes at most one byte. -/
theorem dataWrites_cases (c : Config) (k : Kind) (op : Operand) (s : State) :
    dataWrites c k op s = [] ∨ ∃ addr v, dataWrites c k op s = [.write addr v] := by
  unfold dataWrites
  split
  next v a _ _ => exact .inr ⟨a, v, rfl⟩
  next => exact .inl rfl

theorem busTrace_idle {c : Config} {s : State} (h : 0 < s.rc) : busTrace c s = [] := if_pos h

/-- A byte without an entry or without a behaviour is read, and nothing else (R123, R124). -/
theorem busTrace_of_not_implemented {c : Config} {s : State} (hrc : s.rc = 0)
    (h : ∀ e, c.table.lookup s.opcodeByte = some e → e.kind.implemented = false) : busTrace c s = [.read s.pc] := by
  unfold busTrace
  rw [if_neg (by omega)]
  cases he : c.table.lookup s.opcodeByte with
  | none => rfl
  | some e => simp [h e he]

/-- The operand of the instruction at PC when its opcode byte has this entry (R90, R122). -/
def State.operandAt (s : State) (e : Entry) : Operand := .ofBytes e.mode (s.read (s.pc + 1)) (s.read (s.pc + 2))

/-- A behaviour's reads all come before its write (R75, R77). -/
theorem busTrace_of_implemented {c : Config} {s : State} (hrc : s.rc = 0) {e : Entry}
    (he : c.table.lookup s.opcodeByte = some e) (hk : e.kind.implemented = true) :
    ∃ reads, OnlyReads reads ∧ busTrace c s = reads ++ dataWrites c e.kind (s.operandAt e) s := by
  have htrace : busTrace c s = [.read s.pc] ++ (operandReads e.mode s ++ pointerReads c e.kind (s.operandAt e) s ++
      dataReads c e.kind (s.operandAt e) s ++ dataWrites c e.kind (s.operandAt e) s) := by
    unfold busTrace
    rw [if_neg (by omega), he]
    simp only [hk, if_true]
    rfl
  rw [← List.append_assoc] at htrace
  refine ⟨_, ?_, htrace⟩
  exact .append ⟨[s.pc], rfl⟩ <| ((operandReads_onlyReads _ s).append (pointerReads_onlyReads c _ _ s)).append
    (dataReads_onlyReads c _ _ s)

/-- Every step's accesses are reads, then at most one write (R77). -/
theorem busTrace_reads_then_write (c : Config) (s : State) : ∃ reads : List Word,
    busTrace c s = reads.map .read ∨ ∃ addr v, busTrace c s = reads.map .read ++ [.write addr v] := by
  rcases Nat.eq_zero_or_pos s.rc with hrc | hrc
  · by_cases h : ∃ e, c.table.lookup s.opcodeByte = some e ∧ e.kind.implemented = true
    · obtain ⟨e, he, hk⟩ := h
      obtain ⟨_, ⟨reads, rfl⟩, htrace⟩ := busTrace_of_implemented hrc he hk
      refine ⟨reads, ?_⟩
      obtain hw | ⟨addr, v, hw⟩ := dataWrites_cases c e.kind (s.operandAt e) s
      · exact .inl (by rw [htrace, hw, List.append_nil])
      · exact .inr ⟨addr, v, by rw [htrace, hw]⟩
    · exact ⟨[s.pc], .inl (busTrace_of_not_implemented hrc fun e he => by simpa using fun hk => h ⟨e, he, hk⟩)⟩
  · exact ⟨[], .inl (busTrace_idle hrc)⟩

/-- Settles O12: reads and writes go through the resolver, and the trace ends in at most one write. -/
theorem resolverReadsAndFailures : Obligations.ResolverReadsAndFailures := by
  refine ⟨fun c v u s => ⟨rfl, rfl⟩, fun c op v s hc hop => ?_, fun c op v s hop => ?_, busTrace_reads_then_write⟩
  · obtain ⟨a, ha⟩ := address_total hc (hasAddress_iff.mpr hop) s
    exact ⟨a, ha, readOperand_of_address (ha .read), writeOperand_of_address (ha .write) v⟩
  · have modes : ∀ m ∈ [Mode.imp, .acc, .rel, .ind], m ≠ .imm ∧ hasAddress m = false := by decide
    obtain ⟨himm, haddr⟩ := modes op.mode hop
    exact ⟨readOperand_fails himm haddr s, writeOperand_fails haddr v s⟩

/-! ## The memory after a step (R77) -/

/-- A mnemonic without a behaviour fails by name (R124, R210). -/
theorem execWith_of_not_implemented {k : Kind} (h : k.implemented = false) (c : Config) (op : Operand) (s : State) :
    execWith c (k.instr op) s = .fault (.unsupportedInstruction k) := by
  cases k with
  | asl | lsr | rol | ror | brk | rti | rts | jsr | pha | pla | php | plp | clc | sec | cli | sei | clv | cld | sed
  | tax | tay | txa | tya | tsx | txs | nop => rfl
  | _ => cases h

theorem foldl_dataWrites_of_none {c : Config} {k : Kind} {op : Operand} {s : State} (h : storedByte c k op s = none)
    (m : Memory) : (dataWrites c k op s).foldl BusAccess.apply m = m := by
  simp [dataWrites, h]

theorem foldl_dataWrites_of_some {c : Config} {k : Kind} {op : Operand} {s : State} {v : Byte} {a : Word}
    (h : storedByte c k op s = some v) (ha : address c .write op s = .next a) (m : Memory) :
    (dataWrites c k op s).foldl BusAccess.apply m = Memory.write m a.toNat v := by
  simp [dataWrites, h, ha, BusAccess.apply]

/-- Once for all behaviours: the memory afterwards is the memory before with the behaviour's write applied. -/
theorem execWith_mem {c : Config} {k : Kind} {op : Operand} {s t : State} (h : execWith c (k.instr op) s = .next t) :
    t.mem = (dataWrites c k op s).foldl BusAccess.apply s.mem := by
  have kept (hv : storedByte c k op s = none) (hm : t.mem = s.mem) :
      t.mem = (dataWrites c k op s).foldl BusAccess.apply s.mem :=
    hm.trans (foldl_dataWrites_of_none hv s.mem).symm
  have read {r : Result Byte} {g : Byte → State} (h : ∃ v, r = .next v ∧ t = g v) (hg : ∀ v, (g v).mem = s.mem) :
      t.mem = s.mem := by
    obtain ⟨v, _, rfl⟩ := h
    exact hg v
  cases k with
  | sta | stx | sty =>
    obtain ⟨a, ha, rfl⟩ := store_eq_next.mp h
    exact (foldl_dataWrites_of_some rfl ha s.mem).symm
  | inc | dec =>
    obtain ⟨m, a, hm, ha, rfl⟩ := modifyMemory_eq_next.mp h
    exact (foldl_dataWrites_of_some (by simp only [storedByte, hm]) ha s.mem).symm
  | lda | ldx | ldy => exact kept rfl (read (load_eq_next.mp h) fun _ => rfl)
  | adc | sbc => exact kept rfl (read (arithmetic_eq_next.mp h) fun _ => rfl)
  | and | ora | eor => exact kept rfl (read (logical_eq_next.mp h) fun _ => rfl)
  | cmp | cpx | cpy => exact kept rfl (read (compareWith_eq_next.mp h) fun _ => rfl)
  | bit => exact kept rfl (read (bitWith_eq_next.mp h) fun _ => rfl)
  | inx | iny | dex | dey => exact kept rfl (by rw [modifyRegister_eq_next h]; rfl)
  | jmp =>
    obtain ⟨w, _, rfl⟩ | ⟨w, _, rfl⟩ := jmpWith_eq_next h <;> exact kept rfl rfl
  | bcc | bcs | beq | bne | bmi | bpl | bvc | bvs =>
    obtain ⟨off, _, rfl⟩ := branch_eq_next h
    exact kept rfl rfl
  | _ => cases h

theorem State.fetchInstr_of_lookup_none {t : OpcodeTable} {s : State} (h : t.lookup s.opcodeByte = none) :
    s.fetchInstr t = .undefined s.opcodeByte := by
  simp only [State.fetchInstr, decodeBytes, h]

theorem State.fetchInstr_of_lookup_some {t : OpcodeTable} {s : State} {e : Entry} (h : t.lookup s.opcodeByte = some e) :
    s.fetchInstr t = e.kind.instr (s.operandAt e) := by
  simp only [State.fetchInstr, decodeBytes, h, State.operandAt]

/-- Settles O49: an idle step writes nothing, and a step that completes a behaviour applies that behaviour's write after
its reads. -/
theorem busTraceExplainsTheMemory : Obligations.BusTraceExplainsTheMemory := by
  refine ⟨fun c s t h => ?_, fun c s => busTrace_of_not_implemented⟩
  obtain ⟨hrc, rfl⟩ | ⟨hrc, u, hu, rfl⟩ := engineStep_eq_next.mp h
  · rw [busTrace_idle hrc]
    rfl
  · cases he : c.table.lookup s.opcodeByte with
    | none =>
      rw [State.fetchInstr_of_lookup_none he] at hu
      cases hu
    | some e =>
      rw [State.fetchInstr_of_lookup_some he] at hu
      cases hk : e.kind.implemented with
      | false =>
        rw [execWith_of_not_implemented hk] at hu
        cases hu
      | true =>
        obtain ⟨reads, hreads, htrace⟩ := busTrace_of_implemented hrc he hk
        rw [htrace, List.foldl_append, hreads.foldl_apply, ← execWith_mem hu]
        rfl

end Sys2Proof.Machine
end

section
/-! PROOF. A store is seen by the next load and the next fetch (spec/20_memory.md R76, R82;
spec/70_reset_and_hazards.md R276). -/

namespace Sys2Proof.Machine

theorem exec_sta_of_address {op : Operand} {s : State} {a : Word} (ha : address Config.spec .write op s = .next a) :
    exec (.sta op) s = .next ((s.write a s.a).advance op) :=
  store_eq_next.mpr ⟨a, ha, rfl⟩

theorem exec_lda_of_address {op : Operand} {s : State} {a : Word} (ha : address Config.spec .read op s = .next a) :
    exec (.lda op) s = .next (((s.setA (s.read a)).setNZ (s.read a)).advance op) :=
  load_eq_next.mpr ⟨s.read a, readOperand_of_address ha, rfl⟩

/-- Settles O16: the store leaves the byte at the address that the load resolves to. -/
theorem storeThenLoadReturnsTheValue : Obligations.StoreThenLoadReturnsTheValue := by
  intro op op' s a hm _ ha
  exact ⟨_, exec_sta_of_address ha, fun _ ha' => ⟨_, exec_lda_of_address ha', State.read_write_same hm a s.a⟩⟩

/-- The engine counts RC down without touching anything else (R121). -/
theorem run_idle {n : Nat} {s : State} (h : n ≤ s.rc) : run n s = .next (s.setRc (s.rc - n)) := by
  induction n generalizing s with
  | zero => rfl
  | succ n ih =>
    have hstep : step s = .next s.idle := engineStep_eq_next.mpr (.inl ⟨by omega, rfl⟩)
    have hrest : n ≤ s.idle.rc := Nat.le_sub_of_add_le h
    rw [run_succ, hstep, andThen_next, ih hrest]
    exact congrArg (fun k => Host.Outcome.next (s.setRc k)) (by rw [State.idle, State.setRc_rc]; omega)

theorem State.wordOf_read_operand (s : State) : wordOf (s.read (s.pc + 1)) (s.read (s.pc + 2)) = s.read16 (s.pc + 1) := by
  rw [State.read16, BitVec.add_assoc]
  rfl

/-- The fetch-dispatch step of STA absolute: one byte stored, PC past the instruction, three idle steps to come. -/
theorem step_sta_abs {s : State} (hrc : s.rc = 0) (hop : s.read s.pc = 0x8D) :
    step s = .next (((s.write (s.read16 (s.pc + 1)) s.a).setPc (s.pc + 3)).setRc 3) := by
  have hentry : specTable.lookup s.opcodeByte = some ⟨.sta, .abs, 3, 4⟩ := by rw [State.opcodeByte, hop]; rfl
  have hcycles : cyclesOf specTable s.opcodeByte = 4 := by rw [cyclesOf, hentry]
  refine engineStep_eq_next.mpr (.inr ⟨hrc, (s.write (s.read16 (s.pc + 1)) s.a).setPc (s.pc + 3), ?_, ?_⟩)
  · rw [spec_table, State.fetchInstr_of_lookup_some hentry]
    show exec (.sta (.abs _)) s = _
    rw [State.wordOf_read_operand, exec_sta_of_address rfl]
    rfl
  · rw [spec_table, State.charge, hcycles]

/-- A byte stored where the next instruction begins is its opcode byte (R82). -/
theorem State.fetchInstr_write_pc {s : State} (hm : Memory.wf s.mem = true) (t : OpcodeTable) (pc : Word) (v : Byte) :
    ((s.write pc v).setPc pc).fetchInstr t = decodeBytes t v (s.read (pc + 1)) (s.read (pc + 2)) := by
  have hother {k : Word} (hk : k ≠ 0) : (s.write pc v).read (pc + k) = s.read (pc + k) :=
    State.read_write_other s v (by simpa using hk)
  show decodeBytes t ((s.write pc v).read pc) ((s.write pc v).read (pc + 1)) ((s.write pc v).read (pc + 2)) = _
  rw [State.read_write_same hm, hother (by decide), hother (by decide)]

/-- Settles O50: the store is in memory when the next instruction is fetched, and its address was fetched before it. -/
theorem fetchSeesTheLastStore : Obligations.FetchSeesTheLastStore := by
  intro s hm hrc hop
  have hstep := step_sta_abs hrc hop
  refine ⟨fun haddr => ?_, fun haddr => ?_⟩ <;> rw [haddr] at hstep
  · refine ⟨((s.write (s.pc + 3) s.a).setPc (s.pc + 3)).setRc 0, ?_, rfl, rfl, ?_⟩
    · rw [show 4 = 3 + 1 from rfl, run_succ, hstep, andThen_next, run_idle (le_refl 3)]
      rfl
    · refine (State.fetchInstr_write_pc hm specTable (s.pc + 3) s.a).trans ?_
      rw [BitVec.add_assoc, BitVec.add_assoc]
      rfl
  · exact ⟨_, hstep, rfl, State.read_write_same hm _ _, fun b hb => State.read_write_other s s.a hb⟩

end Sys2Proof.Machine
end

section
/-! PROOF. The map of R97 and the family tables agree at every byte, so decoding and encoding undo each other
(spec/30_encoding.md R90 to R100). -/

namespace Sys2Proof

/-! ## The map against the family tables (R97, R98) -/

theorem specTable_length : specTable.length = 256 := by
  simp only [specTable, List.length_append]
  rfl

/-- A cell of the map with an entry stands at the opcode byte that the mnemonic's own rule gives to the entry's mode. -/
def cellAgrees : Option Entry × Nat → Bool
  | (none, _) => true
  | (some e, n) => e.kind.modes.contains e.mode && e.kind.opcode e.mode == some (BitVec.ofNat 8 n)

theorem specTable_cells_agree : specTable.zipIdx.all cellAgrees = true := by decide +kernel

/-- The list of R98 is the positions of the map without an entry, in order. -/
theorem undefinedOpcodes_eq :
    undefinedOpcodes = (specTable.zipIdx.filter fun c => c.1.isNone).map fun c => BitVec.ofNat 8 c.2 := by
  decide +kernel

/-- No byte lies outside the map (R93). -/
theorem specTable_getElem? (b : Byte) : specTable[b.toNat]? = some (specTable.lookup b) := by
  have hb : b.toNat < specTable.length := specTable_length ▸ b.isLt
  rw [OpcodeTable.lookup, List.getElem?_eq_getElem hb]
  rfl

theorem specTable_lookup_ofNat {n : Nat} {c : Option Entry} (h : specTable[n]? = some c) :
    specTable.lookup (BitVec.ofNat 8 n) = c := by
  have hn : n < 256 := specTable_length ▸ (List.getElem?_eq_some_iff.mp h).1
  rw [OpcodeTable.lookup, BitVec.toNat_ofNat, Nat.mod_eq_of_lt hn, h]
  rfl

theorem specTable_lookup_eq_none_iff {b : Byte} : specTable.lookup b = none ↔ b ∈ undefinedOpcodes := by
  rw [undefinedOpcodes_eq, List.mem_map]
  constructor
  · intro h
    have hcell : (none, b.toNat) ∈ specTable.zipIdx := by
      rw [List.mk_mem_zipIdx_iff_getElem?, specTable_getElem?, h]
    exact ⟨_, List.mem_filter.mpr ⟨hcell, rfl⟩, by simp⟩
  · rintro ⟨⟨c, n⟩, hc, rfl⟩
    obtain ⟨hcell, hnone⟩ := List.mem_filter.mp hc
    rw [specTable_lookup_ofNat (List.mk_mem_zipIdx_iff_getElem?.mp hcell)]
    exact Option.isNone_iff_eq_none.mp hnone

/-- The converse of `opcode_lookup`: what the map holds, the family tables say. -/
theorem modes_and_opcode_of_lookup {b : Byte} {e : Entry} (h : specTable.lookup b = some e) :
    e.kind.modes.contains e.mode = true ∧ e.kind.opcode e.mode = some b := by
  have hcell : (some e, b.toNat) ∈ specTable.zipIdx := by
    rw [List.mk_mem_zipIdx_iff_getElem?, specTable_getElem?, h]
  simpa [cellAgrees] using List.all_eq_true.mp specTable_cells_agree _ hcell

/-! ## Well-formedness and encoding of each form of instruction -/

@[simp] theorem wf_undefined (b : Byte) : (Instr.undefined b).wf = true ↔ b ∈ undefinedOpcodes :=
  List.contains_iff_mem

@[simp] theorem wf_instr (k : Kind) (op : Operand) : (k.instr op).wf = k.modes.contains op.mode := by
  rw [Instr.wf, instr_view]

theorem encode_instr {k : Kind} {op : Operand} {b : Byte} (h : k.opcode op.mode = some b) :
    encode (k.instr op) = b :: op.bytes := by
  rw [encode, instr_view]
  simp only [h]

/-! ## The two ways a decode goes -/

theorem Mode.length_pos (m : Mode) : 0 < m.length := by
  cases m <;> decide

theorem Mode.length_le_three (m : Mode) : m.length ≤ 3 := by
  cases m <;> decide

theorem decode_of_lookup_none {b : Byte} (h : specTable.lookup b = none) (rest : List Byte) :
    decode (b :: rest) = .ok (.undefined b, rest) := by
  simp [decode, decodeWith, OpcodeTable.lengthOf, decodeBytes, h]

theorem decode_of_lookup_some {b : Byte} {e : Entry} (h : specTable.lookup b = some e) (rest : List Byte) :
    decode (b :: rest) =
      if e.mode.length ≤ rest.length + 1 then
        .ok (e.kind.instr (.ofBytes e.mode (rest.getD 0 0) (rest.getD 1 0)), rest.drop (e.mode.length - 1))
      else .error (.missingOperand b) := by
  simp only [decode, decodeWith, OpcodeTable.lengthOf, decodeBytes, h, List.length_cons,
    List.drop_cons e.mode.length_pos]

/-- The operand that a mode makes of enough bytes has the bytes it consumed (R90, R91). -/
theorem bytes_ofBytes {m : Mode} {l : List Byte} (h : m.length ≤ l.length + 1) :
    (Operand.ofBytes m (l.getD 0 0) (l.getD 1 0)).bytes ++ l.drop (m.length - 1) = l := by
  cases m with
  | imp | acc => rfl
  | imm | zp | zpx | zpy | rel | indx | indy =>
    obtain _ | ⟨b, l⟩ := l
    · exact absurd h (by decide)
    · rfl
  | abs | absx | absy | ind =>
    obtain _ | ⟨b, _ | ⟨b', l⟩⟩ := l
    · exact absurd h (by decide)
    · exact absurd h (by simp [Mode.length])
    · simp [Operand.ofBytes, Operand.bytes, Mode.length]

/-! ## The round trip -/

/-- Settles O4, through the two shapes of an instruction taken apart. -/
theorem wellFormedInstructionsHaveBytes : Obligations.WellFormedInstructionsHaveBytes := by
  intro i
  cases hv : i.view with
  | inl b => exact view_undefined hv ▸ Laws.Encoding.undefined b
  | inr p => exact Laws.Encoding.of_kind hv

/-- Settles O2: the opcode byte leads back to the mnemonic and mode, and the operand bytes to the operand. -/
theorem decodeUndoesEncode : Obligations.DecodeUndoesEncode := by
  intro i rest hwf
  cases hv : i.view with
  | inl b =>
    obtain rfl := view_undefined hv
    exact decode_of_lookup_none (specTable_lookup_eq_none_iff.mpr ((wf_undefined b).mp hwf)) rest
  | inr p =>
    obtain ⟨k, op⟩ := p
    obtain rfl := view_instr hv
    obtain ⟨b, e, hb, he, rfl, hmode⟩ := opcode_lookup k ((wf_instr k op).symm.trans hwf)
    have hlen : op.mode.length = op.bytes.length + 1 := (length_bytes op).symm
    have henough : op.mode.length ≤ (op.bytes ++ rest).length + 1 := by
      rw [hlen, List.length_append]
      omega
    rw [encode_instr hb, List.cons_append, decode_of_lookup_some he, hmode, if_pos henough, ofBytes_bytes, hlen,
      Nat.add_sub_cancel, List.drop_left]

/-- Settles O3: an entry of the map stands at its mnemonic's own opcode byte, and an operand keeps every byte it is made
of. -/
theorem encodeUndoesDecode : Obligations.EncodeUndoesDecode := by
  intro bytes i rest h
  cases bytes with
  | nil => cases h
  | cons b tail =>
    cases he : specTable.lookup b with
    | none =>
      rw [decode_of_lookup_none he] at h
      cases h
      exact ⟨(wf_undefined b).mpr (specTable_lookup_eq_none_iff.mp he), rfl⟩
    | some e =>
      obtain ⟨hmodes, hopcode⟩ := modes_and_opcode_of_lookup he
      rw [decode_of_lookup_some he] at h
      split at h
      next hlen =>
        cases h
        refine ⟨by rw [wf_instr, ofBytes_mode]; exact hmodes, ?_⟩
        rw [encode_instr (by rw [ofBytes_mode]; exact hopcode), List.cons_append, bytes_ofBytes hlen]
      next => cases h

/-! ## Decoding at PC -/

/-- No instruction is longer than three bytes, so three bytes always decode (R93). -/
theorem decode_three (b0 b1 b2 : Byte) :
    ∃ rest, decode [b0, b1, b2] = .ok (decodeBytes specTable b0 b1 b2, rest) := by
  have hlen : specTable.lengthOf b0 ≤ 3 := by
    unfold OpcodeTable.lengthOf
    split
    · decide
    · exact Mode.length_le_three _
  exact ⟨_, if_pos hlen⟩

/-- Settles O5: the decoder reads at PC what the engine's fetch does, and what decodes is well-formed. -/
theorem everyFetchDecodes : Obligations.EveryFetchDecodes := by
  intro s
  obtain ⟨rest, h⟩ := decode_three (s.read s.pc) (s.read (s.pc + 1)) (s.read (s.pc + 2))
  exact ⟨_, rest, h, (encodeUndoesDecode _ _ _ h).1, rfl⟩

/-- Settles O1: each word is looked up and its operand read. -/
theorem wordsOfTheAddressingModesDecode : Obligations.WordsOfTheAddressingModesDecode :=
  ⟨rfl, rfl, rfl, rfl, rfl, rfl, rfl, rfl, rfl, rfl, rfl, rfl, rfl⟩

end Sys2Proof
end

section
/-! PROOF. The counts of the opcode table, what a launch checks, and which instructions run: every mnemonic with a
behaviour completes in its own modes, and an undefined byte fails (spec/30_encoding.md R94 to R99). -/

namespace Sys2Proof.Machine

/-! ## The table and the launch (R4, R94, R96) -/

theorem spec_wf : Config.spec.wf = true := by decide +kernel

/-- Settles O6: the table is one closed value, checked and counted. -/
theorem specTableIsWellFormed : Obligations.SpecTableIsWellFormed :=
  ⟨spec_wf, specTable_length, by decide +kernel, by decide +kernel, by decide +kernel⟩

theorem launch_of_malformed {c : Config} (h : c.table.wf = false) (bus : Memory) :
    launch c bus = .error .malformedTable := by
  simp [launch, h]

theorem launch_of_wf {c : Config} (h : c.table.wf = true) (bus : Memory) :
    launch c bus = if c.resetVector = 0xFFFF then .error .vectorCrossesTop else .ok (construct c bus) := by
  simp [launch, h]

/-- Settles O44: the table is checked before the vector, and both before construction. -/
theorem launchRefusesMalformedConfigurations : Obligations.LaunchRefusesMalformedConfigurations := by
  intro c bus
  refine ⟨?_, fun h => launch_of_malformed h bus⟩
  cases h : c.table.wf with
  | false => simp [launch_of_malformed h]
  | true =>
    rw [launch_of_wf h]
    by_cases hv : c.resetVector = 0xFFFF <;> simp [hv]

/-! ## Undefined bytes (R98, R123, R241) -/

/-- A failing step leaves the host the state before it (R246). -/
theorem hostStep_of_fault {s : State} {f : Fault} (h : step s = .fault f) : hostStep s = (.failed f, s) := by
  rw [hostStep, h, observe]

theorem step_of_lookup_none {s : State} (hrc : s.rc = 0) (h : specTable.lookup s.opcodeByte = none) :
    step s = .fault (.invalidOpcode s.opcodeByte) := by
  refine engineStep_eq_fault.mpr ⟨hrc, ?_⟩
  rw [spec_table, State.fetchInstr_of_lookup_none h]
  rfl

/-- Settles O32: the empty cells of the map are the bytes of R98, and a step at one fails with that byte. -/
theorem undefinedBytesFail : Obligations.UndefinedBytesFail :=
  ⟨fun _ => specTable_lookup_eq_none_iff, fun _ _ => rfl, fun _ hrc h =>
    have hstep := step_of_lookup_none hrc h
    ⟨hstep, hostStep_of_fault hstep⟩⟩

/-! ## Behaviours complete in their own modes (R99, R125, R243) -/

theorem jmp_answers {op : Operand} (h : op.mode ∈ Kind.jmp.modes) (s : State) :
    ∃ t, jmpWith Config.spec op s = .next t := by
  cases op with
  | abs w | ind w => exact ⟨_, rfl⟩
  | _ => simp [Operand.mode, Kind.modes] at h

theorem branch_answers {op : Operand} (h : op.mode = .rel) (taken : Bool) (s : State) :
    ∃ t, branch Config.spec op taken s = .next t := by
  cases op with
  | rel off => exact ⟨_, rfl⟩
  | _ => cases h

/-- A behaviour that reads its operand stands only in readable modes, one that writes only in modes with an address;
the increments are implied, the branches relative, and JMP absolute or indirect. -/
theorem exec_answers_of_mode {k : Kind} {op : Operand} (hk : k.implemented = true) (hop : op.mode ∈ k.modes)
    (s : State) : ∃ t, exec (k.instr op) s = .next t := by
  have read (hmodes : ∀ m ∈ k.modes, m = .imm ∨ hasAddress m = true) (g : Byte → State) :
      ∃ t, andThen (readOperand Config.spec op s) (fun m => .next (g m)) = .next t := by
    obtain ⟨m, hm⟩ := readOperand_total spec_official (hmodes _ hop) s
    exact ⟨g m, by rw [hm, andThen_next]⟩
  have addressed (hmodes : ∀ m ∈ k.modes, hasAddress m = true) :
      ∃ a, ∀ dir, address Config.spec dir op s = .next a :=
    address_total spec_official (hmodes _ hop) s
  cases k with
  | lda | ldx | ldy | adc | sbc | and | ora | eor | cmp | cpx | cpy | bit => exact read (by decide) _
  | sta | stx | sty =>
    obtain ⟨a, ha⟩ := addressed (by decide)
    exact ⟨_, store_eq_next.mpr ⟨a, ha .write, rfl⟩⟩
  | inc | dec =>
    obtain ⟨a, ha⟩ := addressed (by decide)
    exact ⟨_, modifyMemory_eq_next.mpr ⟨_, a, readOperand_of_address (ha .read), ha .write, rfl⟩⟩
  | inx | iny | dex | dey => exact ⟨_, unlessVariant_official spec_official op _⟩
  | jmp => exact jmp_answers hop s
  | bcc | bcs | beq | bne | bmi | bpl | bvc | bvs => exact branch_answers (List.mem_singleton.mp hop) _ s
  | _ => cases hk

/-- Settles O28: the step charges the cycles of what completes. -/
theorem everyImplementedInstructionCompletes : Obligations.EveryImplementedInstructionCompletes := by
  intro k op hk hwf
  have hexec := exec_answers_of_mode hk (List.contains_iff_mem.mp ((wf_instr k op).symm.trans hwf))
  refine ⟨hexec, fun s hrc hfetch => ?_⟩
  obtain ⟨u, hu⟩ := hexec s
  exact ⟨_, engineStep_eq_next.mpr (.inr ⟨hrc, u, hfetch ▸ hu, rfl⟩)⟩

end Sys2Proof.Machine
end

section
/-! PROOF. The engine (spec/40_engine.md R120 to R132): an idle step counts RC down, a fetch-dispatch step runs the
instruction at PC and sets RC, so an instruction of c cycles takes c steps. -/

namespace Sys2Proof.Machine

open Sys2Proof.Claims

/-! ## One step (R120 to R130) -/

theorem stepWith_idle {c : Config} {s : State} (h : 0 < s.rc) : stepWith c s = .next s.idle := if_pos h

/-- Settles O37: idling is decided before the parameters are looked at. -/
theorem idleStepCountsDown : Obligations.IdleStepCountsDown := by
  intro c s h
  exact ⟨by rw [step_eq_stepWith_spec]; exact stepWith_idle h, stepWith_idle h, busTrace_idle h⟩

/-- In Fetch-dispatch only a next state is charged; a failure or a refusal is the instruction's own (R126, R245). -/
theorem stepWith_eq_onNext {c : Config} {s : State} (h : s.rc = 0) :
    stepWith c s = onNext (fun t => t.charge c.table s.opcodeByte) (execWith c (s.fetchInstr c.table) s) := by
  rw [stepWith_fetch h, fetchDispatch]
  cases execWith c (s.fetchInstr c.table) s <;> rfl

/-- What the decoder makes of the bytes at PC is what the engine fetches (R93, R122). -/
theorem fetchInstr_of_decode {s : State} {i : Instr} {rest : List Byte}
    (h : decode [s.read s.pc, s.read (s.pc + 1), s.read (s.pc + 2)] = .ok (i, rest)) : s.fetchInstr specTable = i := by
  obtain ⟨rest', hfetch⟩ := decode_three (s.read s.pc) (s.read (s.pc + 1)) (s.read (s.pc + 2))
  rw [hfetch] at h
  cases h
  rfl

/-- Settles O36: the engine fetches the decoded instruction, and charges what it answers. -/
theorem stepRunsTheDecodedInstruction : Obligations.StepRunsTheDecodedInstruction := by
  intro s i rest hrc hdecode _
  rw [step_eq_stepWith_spec, stepWith_eq_onNext hrc, spec_table, fetchInstr_of_decode hdecode, exec_eq_execWith_spec]
  rfl

/-- The mnemonics that R133 registers are those with a behaviour. -/
theorem implemented_iff_mem (k : Kind) :
    k.implemented = true ↔ k ∈ [Kind.lda, .ldx, .ldy, .sta, .stx, .sty, .adc, .sbc, .and, .ora, .eor, .inc, .dec,
      .inx, .iny, .dex, .dey, .cmp, .cpx, .cpy, .bit, .jmp, .bcc, .bcs, .beq, .bne, .bmi, .bpl, .bvc, .bvs] := by
  cases k <;> decide

/-- Each check in the order R130 gives it: RC, the table entry, the behaviour. -/
theorem stepWith_eq_stepByRule (c : Config) (s : State) : stepWith c s = stepByRule c s := by
  unfold stepByRule
  split
  next hrc => exact stepWith_idle hrc
  next hrc =>
    rw [stepWith_eq_onNext (Nat.eq_zero_of_not_pos hrc)]
    split
    next hnone =>
      rw [State.fetchInstr_of_lookup_none hnone]
      rfl
    next e he =>
      rw [State.fetchInstr_of_lookup_some he]
      split
      next =>
        have hcycles : cyclesOf c.table s.opcodeByte = e.cycles := by rw [cyclesOf, State.opcodeByte, he]
        simp only [State.charge, hcycles]
        rfl
      next hk =>
        have himpl : e.kind.implemented = false := by rwa [← implemented_iff_mem, Bool.not_eq_true] at hk
        rw [execWith_of_not_implemented himpl]
        rfl

/-- Settles O38: the step of the spec's parameters is one of the configured steps. -/
theorem stepIsTheWholeStepRule : Obligations.StepIsTheWholeStepRule :=
  ⟨stepWith_eq_stepByRule, fun s => by rw [step_eq_stepWith_spec, stepWith_eq_stepByRule]⟩

/-! ## Whole instructions (R132) -/

/-- Every entry of the map takes at least one cycle (R96). -/
theorem cycles_pos_of_lookup {b : Byte} {e : Entry} (h : specTable.lookup b = some e) : 1 ≤ e.cycles := by
  have hmem : some e ∈ specTable := List.mem_of_getElem? (Option.join_eq_some_iff.mp h)
  have htable : specTable.wf = true := (Bool.and_eq_true_iff.mp spec_wf).1
  have hentry : e.wf = true := List.all_eq_true.mp (Bool.and_eq_true_iff.mp htable).2 _ hmem
  exact of_decide_eq_true (Bool.and_eq_true_iff.mp hentry).2

/-- A fetch-dispatch step that answers leaves RC at its cycles less one, and has at least one: a byte without an entry
fails (R123, R126). -/
theorem cycles_of_step_eq_next {s t : State} (hrc : s.rc = 0) (h : step s = .next t) :
    1 ≤ cyclesOf specTable s.opcodeByte ∧ t.rc = cyclesOf specTable s.opcodeByte - 1 := by
  constructor
  · cases he : specTable.lookup s.opcodeByte with
    | none =>
      rw [step_of_lookup_none hrc he] at h
      cases h
    | some e =>
      rw [cyclesOf, he]
      exact cycles_pos_of_lookup he
  · obtain ⟨hpos, _⟩ | ⟨_, u, _, rfl⟩ := engineStep_eq_next.mp h
    · omega
    · rfl

/-- After the step that does the work, `j - 1` idle steps are left of an instruction's first `j`. -/
theorem run_instr {s t : State} {j : Nat} (hrc : s.rc = 0) (h : step s = .next t) (hj : 1 ≤ j)
    (hle : j ≤ cyclesOf specTable s.opcodeByte) : run j s = .next (t.setRc (cyclesOf specTable s.opcodeByte - j)) := by
  obtain ⟨_, htrc⟩ := cycles_of_step_eq_next hrc h
  obtain ⟨i, rfl⟩ := Nat.exists_eq_add_of_le' hj
  rw [run_succ, h, andThen_next, run_idle (by omega), htrc, Nat.sub_sub, Nat.add_comm 1 i]

/-- A run of whole instructions that completes began with one that did, and the rest ran from its end with RC = 0. -/
theorem runInstrs_succ_eq_some {n : Nat} {s t : State} {steps : Nat} (h : runInstrs (n + 1) s = some (t, steps)) :
    ∃ u rest, step s = .next u ∧ runInstrs n (u.setRc 0) = some (t, rest) ∧
      steps = cyclesOf specTable s.opcodeByte + rest := by
  unfold runInstrs at h
  cases hstep : step s with
  | next u =>
    simp only [hstep, Option.map_eq_some_iff] at h
    obtain ⟨⟨t', rest⟩, hrest, heq⟩ := h
    cases heq
    exact ⟨u, rest, rfl, hrest, rfl⟩
  | fault f => simp [hstep] at h
  | refused w => simp [hstep] at h

/-- By induction on the instructions: each takes the steps of its cycle count and hands RC = 0 to the next. -/
theorem run_of_runInstrs {n : Nat} {s t : State} {steps : Nat} (hrc : s.rc = 0)
    (h : runInstrs n s = some (t, steps)) : run steps s = .next t ∧ t.rc = 0 := by
  induction n generalizing s steps with
  | zero =>
    cases h
    exact ⟨rfl, hrc⟩
  | succ n ih =>
    obtain ⟨u, rest, hstep, hrest, rfl⟩ := runInstrs_succ_eq_some h
    have hfirst : run (cyclesOf specTable s.opcodeByte) s = .next (u.setRc 0) := by
      rw [run_instr hrc hstep (cycles_of_step_eq_next hrc hstep).1 le_rfl, Nat.sub_self]
    rw [run_add hfirst]
    exact ih rfl hrest

/-- Settles O40: whole instructions, the steps within one, and a step that fails. -/
theorem instructionsOccupyTheirCycles : Obligations.InstructionsOccupyTheirCycles := by
  refine ⟨fun _ _ _ _ => run_of_runInstrs, fun _ _ _ => run_instr, fun s f h => ⟨?_, ?_⟩⟩
  · rw [hostStep_of_fault h]
  · exact (engineStep_eq_fault.mp h).1

end Sys2Proof.Machine
end

section
/-! PROOF. The terms the families' statements share: when a list is the forms of a mnemonic, and what the engine's PC
advance leaves of a state (spec/30_encoding.md R97; spec/40_engine.md R127). -/

namespace Sys2Proof.Machine

open Sys2Proof.Claims

/-- A list of cells of the map that misses no mode of its mnemonic is all of the mnemonic's cells: a mnemonic has one
opcode byte in each mode. -/
theorem encodes_of_cells {k : Kind} {l : Forms}
    (hcells : ∀ f ∈ l, specTable.lookup f.2.1 = some ⟨k, f.1, f.1.length, f.2.2⟩)
    (hmodes : ∀ m ∈ k.modes, m ∈ l.map Prod.fst) : Encodes k l := by
  rintro b ⟨k', m, length, cycles⟩
  constructor
  · rintro ⟨he, rfl⟩
    obtain ⟨hmode, hopcode⟩ := modes_and_opcode_of_lookup he
    obtain ⟨⟨_, b', n⟩, hf, rfl⟩ := List.mem_map.mp (hmodes m (List.contains_iff_mem.mp hmode))
    have hcell := hcells _ hf
    obtain rfl : b' = b := Option.some.inj ((modes_and_opcode_of_lookup hcell).2.symm.trans hopcode)
    cases hcell.symm.trans he
    exact ⟨rfl, rfl, hf⟩
  · rintro ⟨rfl, hlen, hf⟩
    exact ⟨by rw [hcells _ hf, ← hlen], rfl⟩

/-- The PC update is at 16 bits whatever the sum of PC0 and the length (R127). -/
theorem add_length_eq_nextPc (s : State) (op : Operand) :
    s.pc + BitVec.ofNat 16 op.length = BitVec.ofInt 16 (nextPc s op) := by
  rw [nextPc, BitVec.ofInt_add, BitVec.ofInt_natCast, BitVec.ofInt_natCast, BitVec.ofNat_toNat, BitVec.setWidth_eq]
  rfl

/-- Registers and flags when an instruction has made `u` of `s` and PC is advanced last. -/
theorem after_advance {s u : State} {flags : List (Flag × Bool)} (op : Operand) (hsp : u.sp = s.sp) (hrc : u.rc = s.rc)
    (hpc : u.pc = s.pc) (hflags : ∀ f, u.flag f = (flags.lookup f).getD (s.flag f)) :
    After s (u.advance op) u.a u.x u.y (nextPc s op) flags :=
  ⟨rfl, rfl, rfl, hsp, hrc, by rw [State.advance_pc, hpc, add_length_eq_nextPc], hflags⟩

/-- `SetNZ` in the terms of the claims (R10). -/
theorem flag_setNZ_eq_lookup_nz (s : State) (v : Byte) (f : Flag) :
    (s.setNZ v).flag f = ((nz v).lookup f).getD (s.flag f) := by
  rw [State.flag_setNZ]
  cases f <;> rfl

end Sys2Proof.Machine
end

section
/-! PROOF. Loads and stores (spec/41_load_store.md R140 to R145): every form of a load reads its operand, every form of a
store has an effective address, and the one shared operation of each gives the result and the frame. -/

namespace Sys2Proof.Machine

open Sys2Proof.Claims

/-- Any load whose forms are in readable modes; `a`, `x` and `y` say which register it writes. -/
theorem load_answers {l : Forms} (hl : ∀ m ∈ l.map Prod.fst, m = .imm ∨ hasAddress m = true) {op : Operand}
    (hop : InForms l op) {put : State → Byte → State} {s : State} {a x y : Byte → Byte}
    (hput : ∀ v, put s v = { s with a := a v, x := x v, y := y v }) :
    ∃ v t, readOperand Config.spec op s = .next v ∧ load Config.spec op put s = .next t ∧
      After s t (a v) (x v) (y v) (nextPc s op) (nz v) ∧ MemKept s t := by
  obtain ⟨v, hv⟩ := readOperand_total spec_official (hl _ hop) s
  refine ⟨v, _, hv, load_eq_next.mpr ⟨v, hv, rfl⟩, ?_⟩
  rw [hput]
  exact ⟨after_advance op rfl rfl rfl (flag_setNZ_eq_lookup_nz _ v), fun _ => rfl⟩

/-- Any store whose forms are in modes with an effective address. -/
theorem store_answers {l : Forms} (hl : ∀ m ∈ l.map Prod.fst, hasAddress m = true) {op : Operand}
    (hop : InForms l op) {s : State} (hm : Memory.wf s.mem = true) (v : Byte) :
    ∃ a t, address Config.spec .write op s = .next a ∧ store Config.spec op v s = .next t ∧
      After s t s.a s.x s.y (nextPc s op) [] ∧ Stored s t a v := by
  obtain ⟨a, ha⟩ := address_total spec_official (hl _ hop) s
  exact ⟨a, _, ha .write, store_eq_next.mpr ⟨a, ha .write, rfl⟩, after_advance op rfl rfl rfl fun _ => rfl,
    State.read_write_same hm a v, fun _ => State.read_write_other s v⟩

/-- Settles O14: the three loads are one operation, and their forms are in readable modes. -/
theorem loadsWriteTheirRegisterAndNZ : Obligations.LoadsWriteTheirRegisterAndNZ :=
  ⟨encodes_of_cells (by decide +kernel) (by decide), encodes_of_cells (by decide +kernel) (by decide),
   encodes_of_cells (by decide +kernel) (by decide), fun _ _ s hc hop => execWith_refused hc hop s rfl,
   fun _ _ =>
    ⟨fun hop => load_answers (by decide) hop fun _ => rfl, fun hop => load_answers (by decide) hop fun _ => rfl,
     fun hop => load_answers (by decide) hop fun _ => rfl⟩⟩

/-- Settles O15: the three stores are one operation, their forms are in modes with an address, and an immediate operand
has none. -/
theorem storesWriteOneByte : Obligations.StoresWriteOneByte :=
  ⟨encodes_of_cells (by decide +kernel) (by decide), encodes_of_cells (by decide +kernel) (by decide),
   encodes_of_cells (by decide +kernel) (by decide), fun _ _ s hc hop => execWith_refused hc hop s rfl,
   fun _ _ => rfl,
   fun _ s hm =>
    ⟨fun hop => store_answers (by decide) hop hm s.a, fun hop => store_answers (by decide) hop hm s.x,
     fun hop => store_answers (by decide) hop hm s.y⟩⟩

end Sys2Proof.Machine
end

section
/-! PROOF. Add and subtract with carry (spec/42_arithmetic.md R150 to R153): SBC's result is ADC's on the complement of
the operand, V is the overflow of the signed sum, and every form reads its operand and writes A, C, V, N and Z. -/

namespace Sys2Proof.Machine

open Sys2Proof.Claims

/-! ## The two results -/

/-- R153 as an equation: the complement of `m` is `255 - m`, so the sum exceeds the difference by exactly 256. -/
theorem sbcResult_eq_adcResult_not (a m : Byte) (c : Bool) : sbcResult a m c = adcResult a (~~~m) c := by
  have hsum : (a.toNat : Int) - m.toNat - (1 - c.toNat) + 256 = (a.toNat + (~~~m).toNat + c.toNat : Nat) := by
    have hm := m.isLt
    rw [BitVec.toNat_not]
    omega
  have hvalue : BitVec.ofInt 8 (a.toNat - m.toNat - (1 - c.toNat)) =
      BitVec.ofNat 8 (a.toNat + (~~~m).toNat + c.toNat) := by
    rw [← BitVec.ofInt_natCast, ← hsum, BitVec.ofInt_add]
    exact (BitVec.add_zero _).symm
  have hsign : ~~~(a ^^^ ~~~m) = a ^^^ m := by
    ext i
    simp
  simp only [sbcResult, adcResult, hvalue, hsign, AluResult.mk.injEq, decide_eq_decide, true_and, and_true]
  omega

/-- Bit 7 is the sign. -/
theorem getElem_seven_eq_toInt_neg (x : Byte) : x[7] = decide (x.toInt < 0) :=
  x.msb_eq_getLsbD_last.symm.trans BitVec.msb_eq_toInt

theorem toInt_not_eq_sub (x : Byte) : (~~~x).toInt = -1 - x.toInt := by
  have hx := x.isLt
  rw [BitVec.toInt_eq_toNat_cond, BitVec.toInt_eq_toNat_cond, BitVec.toNat_not]
  omega

/-- The signed reading of ADC's result is the signed sum, wrapped. -/
theorem toInt_adcResult_value (a m : Byte) (c : Bool) :
    (adcResult a m c).value.toInt = (a.toInt + m.toInt + c.toNat).bmod 256 := by
  have hvalue : (adcResult a m c).value = BitVec.ofInt 8 (a.toInt + m.toInt + c.toNat) := by
    rw [BitVec.ofInt_add, BitVec.ofInt_add, BitVec.ofInt_toInt, BitVec.ofInt_toInt, BitVec.ofInt_natCast]
    simp [adcResult, BitVec.ofNat_add]
  rw [hvalue, BitVec.toInt_ofInt]

/-- R152: the operands have one sign and the result the other exactly when the signed sum leaves the signed bytes. -/
theorem adcResult_overflow_iff (a m : Byte) (c : Bool) :
    (adcResult a m c).overflow = true ↔
      ¬ (-128 ≤ a.toInt + m.toInt + c.toNat ∧ a.toInt + m.toInt + c.toNat ≤ 127) := by
  have hsigns : (adcResult a m c).overflow = true ↔
      (a.toInt < 0 ↔ m.toInt < 0) ∧ ¬ (a.toInt < 0 ↔ (a.toInt + m.toInt + c.toNat).bmod 256 < 0) := by
    rw [← toInt_adcResult_value]
    change (~~~(a ^^^ m) &&& (a ^^^ (adcResult a m c).value)).getLsbD 7 = true ↔ _
    simp [getElem_seven_eq_toInt_neg]
  have ha := a.toInt_lt
  have ha' := a.le_toInt
  have hm := m.toInt_lt
  have hm' := m.le_toInt
  have hc := c.toNat_le
  rw [hsigns, Int.bmod_def]
  omega

/-- C after ADC: the unsigned sum needs a ninth bit (R150). -/
theorem adcResult_carry_iff (a m : Byte) (c : Bool) :
    (adcResult a m c).carry = true ↔ 256 ≤ a.toNat + m.toNat + c.toNat :=
  decide_eq_true_iff

/-- C after SBC: no borrow is taken from the unsigned difference (R153). -/
theorem sbcResult_carry_iff (a m : Byte) (c : Bool) :
    (sbcResult a m c).carry = true ↔ m.toNat + (1 - c.toNat) ≤ a.toNat := by
  have hc := c.toNat_le
  have hcarry : (sbcResult a m c).carry = decide ((a.toNat : Int) - m.toNat - (1 - c.toNat) ≥ 0) := rfl
  rw [hcarry, decide_eq_true_iff]
  omega

/-- R152 for SBC, from R152 for ADC on the complement, which reads as `-1 - m`. -/
theorem sbcResult_overflow_iff (a m : Byte) (c : Bool) :
    (sbcResult a m c).overflow = true ↔
      ¬ (-128 ≤ a.toInt - m.toInt - (1 - c.toNat) ∧ a.toInt - m.toInt - (1 - c.toNat) ≤ 127) := by
  have hsum : a.toInt - m.toInt - (1 - c.toNat) = a.toInt + (~~~m).toInt + c.toNat := by
    rw [toInt_not_eq_sub]
    omega
  rw [hsum, sbcResult_eq_adcResult_not, adcResult_overflow_iff]

/-! ## The two instructions -/

/-- ADC and SBC have the same modes, so one list serves both; every form reads its operand. -/
theorem arithmetic_answers {op : Operand} (hop : InForms adcForms op) (s : State) :
    ∃ m, readOperand Config.spec op s = .next m ∧
      ∀ f, arithmetic Config.spec op f s = .next ((s.putAlu (f s.a m (s.flag .c))).advance op) := by
  have hmodes : ∀ m ∈ adcForms.map Prod.fst, m = .imm ∨ hasAddress m = true := by decide
  obtain ⟨m, hm⟩ := readOperand_total spec_official (hmodes _ hop) s
  exact ⟨m, hm, fun f => arithmetic_eq_next.mpr ⟨m, hm, rfl⟩⟩

theorem arithmetic_imm (v : Byte) (f : Byte → Byte → Bool → AluResult) (s : State) :
    arithmetic Config.spec (.imm v) f s = .next ((s.putAlu (f s.a v (s.flag .c))).advance (.imm v)) := rfl

/-- Registers and flags after either instruction, from the result it wrote. -/
theorem after_putAlu_advance (s : State) (r : AluResult) (op : Operand) :
    After s ((s.putAlu r).advance op) r.value s.x s.y (nextPc s op)
      [(.c, r.carry), (.v, r.overflow), (.n, r.value.getLsbD 7), (.z, decide (r.value = 0))] :=
  after_advance op rfl rfl rfl fun f => by rw [State.flag_putAlu]; cases f <;> rfl

/-- Settles O17: each form reads its operand, and `adcResult` is the sum of R150. -/
theorem addWithCarryResult : Obligations.AddWithCarryResult := by
  refine ⟨encodes_of_cells (by decide +kernel) (by decide), fun _ _ s hc hop => execWith_refused hc hop s rfl,
    fun op s hop => ?_⟩
  obtain ⟨m, hm, hexec⟩ := arithmetic_answers hop s
  refine ⟨m, _, hm, hexec adcResult, fun _ => rfl, ?_⟩
  rintro _ _ rfl rfl
  exact after_putAlu_advance s (adcResult s.a m (s.flag .c)) op

/-- Settles O18: each form reads its operand, and `sbcResult` is the difference of R151. -/
theorem subtractWithCarryResult : Obligations.SubtractWithCarryResult := by
  refine ⟨encodes_of_cells (by decide +kernel) (by decide), fun _ _ s hc hop => execWith_refused hc hop s rfl,
    fun op s hop => ?_⟩
  obtain ⟨m, hm, hexec⟩ := arithmetic_answers hop s
  refine ⟨m, _, hm, hexec sbcResult, fun _ => rfl, ?_⟩
  rintro _ _ rfl rfl
  exact after_putAlu_advance s (sbcResult s.a m (s.flag .c)) op

/-- Settles O19: V is the overflow of the result, and each result obeys the signed law. -/
theorem overflowIsSignedOverflow : Obligations.OverflowIsSignedOverflow := by
  intro op s hop
  obtain ⟨m, hm, hexec⟩ := arithmetic_answers hop s
  refine ⟨m, _, _, hm, hexec adcResult, hexec sbcResult, ?_, ?_⟩
  · rw [State.flag_advance, State.flag_putAlu]
    exact adcResult_overflow_iff s.a m (s.flag .c)
  · rw [State.flag_advance, State.flag_putAlu]
    exact sbcResult_overflow_iff s.a m (s.flag .c)

/-- Settles O20: the two results are equal, A and P depend on the result alone, and the immediate forms have one
length. -/
theorem subtractIsAddOfComplement : Obligations.SubtractIsAddOfComplement := by
  have hput (m : Byte) (s : State) :
      s.putAlu (sbcResult s.a m (s.flag .c)) = s.putAlu (adcResult s.a (~~~m) (s.flag .c)) := by
    rw [sbcResult_eq_adcResult_not]
  refine ⟨fun m s => ?_, fun op s hop => ?_⟩
  · calc exec (.sbc (.imm m)) s
      _ = .next ((s.putAlu (sbcResult s.a m (s.flag .c))).advance (.imm m)) := arithmetic_imm m sbcResult s
      _ = .next ((s.putAlu (adcResult s.a (~~~m) (s.flag .c))).advance (.imm (~~~m))) := by rw [hput]; rfl
      _ = exec (.adc (.imm (~~~m))) s := (arithmetic_imm (~~~m) adcResult s).symm
  · obtain ⟨m, hm, hexec⟩ := arithmetic_answers hop s
    refine ⟨m, _, _, _, hm, hexec adcResult, hexec sbcResult, arithmetic_imm (~~~m) adcResult s,
      by rw [hput]; rfl, by rw [hput]; rfl, ?_, ?_⟩
    · rw [State.flag_advance, State.flag_putAlu]
      exact adcResult_carry_iff s.a m (s.flag .c)
    · rw [State.flag_advance, State.flag_putAlu]
      exact sbcResult_carry_iff s.a m (s.flag .c)

end Sys2Proof.Machine
end

section
/-! PROOF. AND, ORA and EOR (spec/43_logical.md R160 to R162): every form reads its operand, the shared operation writes
A, N and Z, and a bit of the result is the operation on the bits. -/

namespace Sys2Proof.Machine

open Sys2Proof.Claims

/-- The three have the same modes, so one list serves them all; every form reads its operand. -/
theorem logical_answers {op : Operand} (hop : InForms andForms op) (s : State) :
    ∃ m, readOperand Config.spec op s = .next m ∧
      ∀ f, logical Config.spec op f s = .next (((s.setA (f s.a m)).setNZ (f s.a m)).advance op) := by
  have hmodes : ∀ m ∈ andForms.map Prod.fst, m = .imm ∨ hasAddress m = true := by decide
  obtain ⟨m, hm⟩ := readOperand_total spec_official (hmodes _ hop) s
  exact ⟨m, hm, fun f => logical_eq_next.mpr ⟨m, hm, rfl⟩⟩

/-- Registers and flags after any of the three, from the result it wrote. -/
theorem after_setA_setNZ_advance (s : State) (r : Byte) (op : Operand) :
    After s (((s.setA r).setNZ r).advance op) r s.x s.y (nextPc s op) (nz r) :=
  after_advance op rfl rfl rfl (flag_setNZ_eq_lookup_nz (s.setA r) r)

/-- Settles O21: each form reads its operand, and the result is the bitwise operation of A and the operand. -/
theorem logicalResults : Obligations.LogicalResults := by
  refine ⟨encodes_of_cells (by decide +kernel) (by decide), encodes_of_cells (by decide +kernel) (by decide),
    encodes_of_cells (by decide +kernel) (by decide), fun _ _ s hc hop => execWith_refused hc hop s rfl,
    fun _ _ s hc hop => execWith_refused hc hop s rfl, fun _ _ s hc hop => execWith_refused hc hop s rfl,
    fun op s hop => ?_⟩
  obtain ⟨m, hm, hexec⟩ := logical_answers hop s
  exact ⟨m, _, _, _, hm, hexec (· &&& ·), hexec (· ||| ·), hexec (· ^^^ ·), fun _ => rfl, fun _ => rfl, fun _ => rfl,
    after_setA_setNZ_advance s (s.a &&& m) op, after_setA_setNZ_advance s (s.a ||| m) op,
    after_setA_setNZ_advance s (s.a ^^^ m) op,
    fun _ _ => ⟨BitVec.getLsbD_and, BitVec.getLsbD_or, BitVec.getLsbD_xor⟩⟩

end Sys2Proof.Machine
end

section
/-! PROOF. Increment and decrement (spec/44_incdec.md R170 to R175): one shared operation changes a memory byte, another a
register, and the new byte is the old one plus or minus one modulo 256. -/

namespace Sys2Proof.Machine

open Sys2Proof.Claims

/-! ## The new byte -/

theorem ofNat_toNat_add_one (v : Byte) : BitVec.ofNat 8 (v.toNat + 1) = v + 1 := by
  rw [BitVec.ofNat_add, BitVec.ofNat_toNat, BitVec.setWidth_eq]
  rfl

theorem ofInt_toNat_sub_one (v : Byte) : BitVec.ofInt 8 (v.toNat - 1) = v - 1 := by
  rw [Int.sub_eq_add_neg, BitVec.ofInt_add, BitVec.ofInt_natCast, BitVec.ofNat_toNat, BitVec.setWidth_eq,
    BitVec.sub_eq_add_neg]
  rfl

theorem toNat_sub_one (v : Byte) : (v - 1).toNat = (v.toNat + 255) % 256 := by
  rw [BitVec.toNat_sub, Nat.add_comm]
  rfl

/-! ## A memory byte (R170, R171) -/

/-- At an address the resolver gives, one byte is replaced, and N and Z are those of its new value. -/
theorem modifyMemory_answers {op : Operand} {s : State} {a : Word} (ha : ∀ dir, address Config.spec dir op s = .next a)
    (hm : Memory.wf s.mem = true) (f : Byte → Byte) :
    ∃ t, modifyMemory Config.spec op f s = .next t ∧ Stored s t a (f (s.read a)) ∧
      After s t s.a s.x s.y (nextPc s op) (nz (f (s.read a))) :=
  ⟨_, modifyMemory_eq_next.mpr ⟨_, a, readOperand_of_address (ha .read), ha .write, rfl⟩,
   ⟨State.read_write_same hm a _, fun _ => State.read_write_other s _⟩,
   after_advance op rfl rfl rfl (flag_setNZ_eq_lookup_nz _ _)⟩

/-- An immediate operand can be read, so it is the write that fails (R243). -/
theorem modifyMemory_imm (c : Config) (f : Byte → Byte) (v : Byte) (s : State) :
    modifyMemory c (.imm v) f s = .fault (.unsupportedAddressingMode .imm .write) := rfl

/-- A mode with neither value nor address fails at once, on the read (R243). -/
theorem modifyMemory_fails {op : Operand} (h : op.mode ∈ [Mode.ind, .imp, .acc, .rel]) (c : Config) (f : Byte → Byte)
    (s : State) : modifyMemory c op f s = .fault (.unsupportedAddressingMode op.mode .read) := by
  have hmodes : ∀ m ∈ [Mode.ind, .imp, .acc, .rel], m ≠ .imm ∧ hasAddress m = false := by decide
  obtain ⟨himm, haddr⟩ := hmodes _ h
  rw [modifyMemory, readOperand_fails himm haddr, andThen_fault]

/-- Settles O22: INC and DEC are one operation on the byte, and their forms are in modes with an address. -/
theorem memoryIncrementAndDecrement : Obligations.MemoryIncrementAndDecrement := by
  refine ⟨encodes_of_cells (by decide +kernel) (by decide), encodes_of_cells (by decide +kernel) (by decide),
    fun v s => ⟨modifyMemory_imm Config.spec (· + 1) v s, modifyMemory_imm Config.spec (· - 1) v s⟩,
    fun _ s h => ⟨modifyMemory_fails h Config.spec (· + 1) s, modifyMemory_fails h Config.spec (· - 1) s⟩,
    fun op s hm hop => ?_⟩
  have hmodes : ∀ m ∈ incForms.map Prod.fst, hasAddress m = true := by decide
  obtain ⟨a, ha⟩ := address_total spec_official (hmodes _ hop) s
  obtain ⟨t, hinc, hstored, hafter⟩ := modifyMemory_answers ha hm (· + 1)
  obtain ⟨u, hdec, hstored', hafter'⟩ := modifyMemory_answers ha hm (· - 1)
  exact ⟨a, t, u, _, _, ha .write, hinc, hdec, (ofNat_toNat_add_one _).symm, (ofInt_toNat_sub_one _).symm,
    hstored, hafter, hstored', hafter'⟩

/-! ## A register (R172 to R175) -/

/-- With the spec's parameters the guard on the mode does nothing, so the register behaviours always answer. -/
theorem modifyRegister_spec (op : Operand) (put : State → Byte → State) (v : Byte) (s : State) :
    modifyRegister Config.spec op put v s = .next (((put s v).setNZ v).advance op) :=
  unlessVariant_official spec_official op _

/-- Registers and flags after `v` is put in X or in Y, with its N and Z; `x` and `y` say which. -/
theorem after_putIndex_setNZ_advance {put : State → Byte → State} {s : State} {v x y : Byte}
    (hput : put s v = { s with x := x, y := y }) (op : Operand) :
    After s (((put s v).setNZ v).advance op) s.a x y (nextPc s op) (nz v) := by
  rw [hput]
  exact after_advance op rfl rfl rfl (flag_setNZ_eq_lookup_nz _ v)

/-- Settles O23: the four are one operation on X or Y. -/
theorem registerIncrementAndDecrement : Obligations.RegisterIncrementAndDecrement := by
  refine ⟨encodes_of_cells (by decide +kernel) (by decide), encodes_of_cells (by decide +kernel) (by decide),
    encodes_of_cells (by decide +kernel) (by decide), encodes_of_cells (by decide +kernel) (by decide), fun s => ?_⟩
  exact ⟨_, _, _, _, modifyRegister_spec .imp State.setX (s.x + 1) s, modifyRegister_spec .imp State.setY (s.y + 1) s,
    modifyRegister_spec .imp State.setX (s.x - 1) s, modifyRegister_spec .imp State.setY (s.y - 1) s,
    fun _ => rfl, fun _ => rfl, fun _ => rfl, fun _ => rfl,
    after_putIndex_setNZ_advance rfl .imp, BitVec.toNat_add s.x 1,
    after_putIndex_setNZ_advance rfl .imp, BitVec.toNat_add s.y 1,
    after_putIndex_setNZ_advance rfl .imp, toNat_sub_one s.x,
    after_putIndex_setNZ_advance rfl .imp, toNat_sub_one s.y⟩

end Sys2Proof.Machine
end

section
/-! PROOF. Compare and bit test (spec/45_compare_bit.md R180 to R183): the three compares are one operation on a
register's value, BIT is another; each reads its operand in every form and writes flags and PC only. -/

namespace Sys2Proof.Machine

open Sys2Proof.Claims

/-! ## The compares (R180 to R182) -/

/-- The wrapped difference of two bytes is their integer difference modulo 256. -/
theorem ofInt_toNat_sub_toNat (v m : Byte) : BitVec.ofInt 8 (v.toNat - m.toNat) = v - m := by
  rw [Int.sub_eq_add_neg, BitVec.ofInt_add, BitVec.ofInt_neg, ← BitVec.sub_eq_add_neg, BitVec.ofInt_natCast,
    BitVec.ofInt_natCast, BitVec.ofNat_toNat, BitVec.ofNat_toNat, BitVec.setWidth_eq, BitVec.setWidth_eq]

/-- Registers and flags after a compare of the value `v` with `m`. -/
theorem after_putCompare_advance (s : State) (v m : Byte) (op : Operand) :
    After s ((s.putCompare v m).advance op) s.a s.x s.y (nextPc s op)
      [(.n, (v - m).getLsbD 7), (.z, decide (v - m = 0)), (.c, decide (m.toNat ≤ v.toNat))] :=
  after_advance op rfl rfl rfl fun f => by rw [State.flag_putCompare]; cases f <;> rfl

/-- Any compare whose forms are in readable modes, for any value `v` compared with the operand. -/
theorem compareWith_answers {l : Forms} (hl : ∀ m ∈ l.map Prod.fst, m = .imm ∨ hasAddress m = true) {op : Operand}
    (hop : InForms l op) (v : Byte) (s : State) :
    ∃ m t, readOperand Config.spec op s = .next m ∧ compareWith Config.spec op v s = .next t ∧ MemKept s t ∧
      ∀ r : Byte, r = BitVec.ofInt 8 (v.toNat - m.toNat) → After s t s.a s.x s.y (nextPc s op)
        [(.n, r.getLsbD 7), (.z, decide (r = 0)), (.c, decide (m.toNat ≤ v.toNat))] := by
  obtain ⟨m, hm⟩ := readOperand_total spec_official (hl _ hop) s
  refine ⟨m, _, hm, compareWith_eq_next.mpr ⟨m, hm, rfl⟩, fun _ => rfl, ?_⟩
  rintro _ rfl
  rw [ofInt_toNat_sub_toNat]
  exact after_putCompare_advance s v m op

/-- Settles O24: CMP, CPX and CPY are one operation on the value of A, X or Y, and their forms are in readable modes. -/
theorem compareFlags : Obligations.CompareFlags :=
  ⟨encodes_of_cells (by decide +kernel) (by decide), encodes_of_cells (by decide +kernel) (by decide),
   encodes_of_cells (by decide +kernel) (by decide), fun _ _ s hc hop => execWith_refused hc hop s rfl,
   fun _ s =>
    ⟨fun hop => compareWith_answers (by decide) hop s.a s, fun hop => compareWith_answers (by decide) hop s.x s,
     fun hop => compareWith_answers (by decide) hop s.y s⟩⟩

/-! ## The bit test (R183) -/

/-- Registers and flags after a bit test of A with `m`. -/
theorem after_putBitTest_advance (s : State) (m : Byte) (op : Operand) :
    After s ((s.putBitTest m).advance op) s.a s.x s.y (nextPc s op)
      [(.n, m.getLsbD 7), (.v, m.getLsbD 6), (.z, decide (s.a &&& m = 0))] :=
  after_advance op rfl rfl rfl fun f => by rw [State.flag_putBitTest]; cases f <;> rfl

/-- Settles O25: both forms of BIT are in modes with an address, so the operand is read, and flags alone are written. -/
theorem bitTestFlags : Obligations.BitTestFlags := by
  refine ⟨encodes_of_cells (by decide +kernel) (by decide), fun op s hop => ?_⟩
  have hmodes : ∀ m ∈ bitForms.map Prod.fst, hasAddress m = true := by decide
  obtain ⟨m, hm⟩ := readOperand_total spec_official (.inr (hmodes _ hop)) s
  exact ⟨m, _, hm, bitWith_eq_next.mpr ⟨m, hm, rfl⟩, fun _ => rfl, after_putBitTest_advance s m op⟩

end Sys2Proof.Machine
end

section
/-! PROOF. Jump and conditional branches (spec/46_control.md R190 to R199): JMP writes a target to PC, and the eight
branches are one operation on the value of a flag. -/

namespace Sys2Proof.Machine

open Sys2Proof.Claims

/-- Outside the two indirect modes the guard does nothing, whatever the parameters (R130). -/
theorem unlessVariant_of_mode {op : Operand} (h : op.mode ≠ .indx ∧ op.mode ≠ .indy) (c : Config) (r : Exec) :
    unlessVariant c op r = r := by
  cases op <;> simp_all [Operand.mode, unlessVariant]

/-! ## JMP (R190) -/

theorem jmpWith_abs (c : Config) (w : Word) (s : State) : jmpWith c (.abs w) s = .next (s.setPc w) :=
  unlessVariant_of_mode (by simp [Operand.mode]) c _

theorem jmpWith_ind (c : Config) (w : Word) (s : State) :
    jmpWith c (.ind w) s = .next (s.setPc (jmpIndirectTarget c w s)) :=
  unlessVariant_of_mode (by simp [Operand.mode]) c _

/-- The address after a pointer in its own page, as a number: the low byte alone is increased, modulo 256. -/
theorem samePageNext_toNat (w : Word) : (samePageNext w).toNat = w.toNat / 256 * 256 + (w.toNat + 1) % 256 := by
  have hlow : (loByte w + 1).toNat = (w.toNat % 256 + 1) % 256 := by
    rw [BitVec.toNat_add, loByte_toNat]
    rfl
  rw [samePageNext, wordOf_toNat, hiByte_toNat, hlow, Nat.mod_add_mod]

theorem jmpIndirectTarget_nmosPageWrap_toNat {c : Config} (hc : c.jmpIndirect = .nmosPageWrap) (w : Word) (s : State) :
    (jmpIndirectTarget c w s).toNat =
      (Memory.read s.mem (w.toNat / 256 * 256 + (w.toNat + 1) % 256)).toNat * 256 +
        (Memory.read s.mem w.toNat).toNat := by
  simp only [jmpIndirectTarget, hc]
  rw [wordOf_toNat, State.read_eq, State.read_eq, samePageNext_toNat]

theorem jmpIndirectTarget_linear {c : Config} (hc : c.jmpIndirect = .linear) (w : Word) (s : State) :
    jmpIndirectTarget c w s = s.read16 w := by
  simp only [jmpIndirectTarget, hc]

theorem jmpIndirectTarget_literal {c : Config} (hc : c.jmpIndirect = .literal) (w : Word) (s : State) :
    jmpIndirectTarget c w s = w := by
  simp only [jmpIndirectTarget, hc]

/-- Settles O26: the two forms of JMP write PC alone, and the indirect target is known for each value of JMP_INDIRECT. -/
theorem jumpTargets : Obligations.JumpTargets :=
  ⟨encodes_of_cells (by decide +kernel) (by decide),
   fun c w s =>
    ⟨jmpWith_abs c w s, jmpIndirectTarget c w s, jmpWith_ind c w s,
     fun hc => jmpIndirectTarget_nmosPageWrap_toNat hc w s,
     fun hc => by rw [jmpIndirectTarget_linear hc, State.read16_toNat],
     fun hc => jmpIndirectTarget_literal hc w s⟩,
   spec_pageWrap,
   fun _ s => ⟨congrFun₂ exec_eq_execWith_spec _ s, congrFun₂ exec_eq_execWith_spec _ s⟩⟩

/-! ## The branches (R191 to R199) -/

/-- The target, computed at 16 bits with the sign-extended offset, is the integer sum modulo 65536. -/
theorem branchTarget_eq_ofInt (taken : Bool) (off : Byte) (s : State) :
    branchTarget taken off s = BitVec.ofInt 16 (s.pc.toNat + 2 + if taken then off.toInt else 0) := by
  have hnext : BitVec.ofInt 16 (s.pc.toNat + 2) = s.pc + 2 := by
    rw [BitVec.ofInt_add, BitVec.ofInt_natCast, BitVec.ofNat_toNat, BitVec.setWidth_eq]
    rfl
  cases taken with
  | false => simp [branchTarget, hnext]
  | true =>
    have hoff : BitVec.ofInt 16 off.toInt = sext16 off := rfl
    simp [branchTarget, BitVec.ofInt_add _ off.toInt, hnext, hoff]

/-- A branch in its own mode always answers, and PC is its only change (R191). -/
theorem branch_rel (c : Config) (off : Byte) (taken : Bool) (s : State) :
    branch c (.rel off) taken s = .next (branchTo s off taken) :=
  calc branch c (.rel off) taken s
      = .next (s.setPc (branchTarget taken off s)) := unlessVariant_of_mode (by simp [Operand.mode]) c _
    _ = .next (branchTo s off taken) := by rw [branchTarget_eq_ofInt]; rfl

/-- Settles O27: the eight are one operation on the value of C, Z, N or V, or on its negation. -/
theorem branchTargets : Obligations.BranchTargets := by
  refine ⟨encodes_of_cells (by decide +kernel) (by decide), encodes_of_cells (by decide +kernel) (by decide),
    encodes_of_cells (by decide +kernel) (by decide), encodes_of_cells (by decide +kernel) (by decide),
    encodes_of_cells (by decide +kernel) (by decide), encodes_of_cells (by decide +kernel) (by decide),
    encodes_of_cells (by decide +kernel) (by decide), encodes_of_cells (by decide +kernel) (by decide), fun off s => ?_⟩
  have rel := fun taken => branch_rel Config.spec off taken s
  simp only [beq_false, beq_true]
  exact ⟨rel (!s.flag .c), rel (s.flag .c), rel (s.flag .z), rel (!s.flag .z),
    rel (s.flag .n), rel (!s.flag .n), rel (!s.flag .v), rel (s.flag .v)⟩

end Sys2Proof.Machine
end

section
/-! PROOF. The mnemonics without a behaviour (spec/47_unsupported.md R210 to R236): the step that fetches one fails by
name and keeps the state, for every list of forms that the map holds. -/

namespace Sys2Proof.Machine

open Sys2Proof.Claims

theorem step_of_lookup_not_implemented {s : State} (hrc : s.rc = 0) {e : Entry}
    (he : specTable.lookup s.opcodeByte = some e) (hk : e.kind.implemented = false) :
    step s = .fault (.unsupportedInstruction e.kind) := by
  rw [step_eq_stepWith_spec]
  refine engineStep_eq_fault.mpr ⟨hrc, ?_⟩
  rw [spec_table, State.fetchInstr_of_lookup_some he, execWith_of_not_implemented hk]

/-- Forms that are cells of the map, and miss no mode of a mnemonic without a behaviour, never run. -/
theorem neverRuns_of_cells {k : Kind} {l : Forms} (hk : k.implemented = false)
    (hcells : ∀ f ∈ l, specTable.lookup f.2.1 = some ⟨k, f.1, f.1.length, f.2.2⟩)
    (hmodes : ∀ m ∈ k.modes, m ∈ l.map Prod.fst) : NeverRuns k l := by
  refine ⟨encodes_of_cells hcells hmodes, fun op s => ?_, fun s hrc hbyte => ?_⟩
  · rw [exec_eq_execWith_spec, execWith_of_not_implemented hk]
  · obtain ⟨f, hf, hopcode⟩ := List.mem_map.mp hbyte
    have hstep : step s = .fault (.unsupportedInstruction k) :=
      step_of_lookup_not_implemented hrc (hopcode ▸ hcells f hf) hk
    exact ⟨hstep, hostStep_of_fault hstep⟩

theorem neverRuns_of_mem {forms : List (Kind × Forms)} (himpl : ∀ p ∈ forms, p.1.implemented = false)
    (hcells : ∀ p ∈ forms, ∀ f ∈ p.2, specTable.lookup f.2.1 = some ⟨p.1, f.1, f.1.length, f.2.2⟩)
    (hmodes : ∀ p ∈ forms, ∀ m ∈ p.1.modes, m ∈ p.2.map Prod.fst) : ∀ p ∈ forms, NeverRuns p.1 p.2 :=
  fun p hp => neverRuns_of_cells (himpl p hp) (hcells p hp) (hmodes p hp)

/-- Settles O29: the forms of R211 to R218 are cells of the map, and none of the eight has a behaviour. -/
theorem shiftsAndCallsNeverRun : Obligations.ShiftsAndCallsNeverRun :=
  neverRuns_of_mem (by decide) (by decide +kernel) (by decide)

/-- Settles O30: the forms of R219 to R229 are cells of the map, and none of the eleven has a behaviour. -/
theorem stackAndFlagInstructionsNeverRun : Obligations.StackAndFlagInstructionsNeverRun :=
  neverRuns_of_mem (by decide) (by decide +kernel) (by decide)

/-- Settles O31: the forms of R230 to R236 are cells of the map, and none of the seven has a behaviour. -/
theorem transfersAndNopNeverRun : Obligations.TransfersAndNopNeverRun :=
  neverRuns_of_mem (by decide) (by decide +kernel) (by decide)

end Sys2Proof.Machine
end

section
/-! PROOF. The failures of a step (spec/60_exceptions.md R240 to R246): which mode and direction a behaviour names, that
the spec's parameters leave two of the failures and no refusal, and that a failing step repeats. -/

namespace Sys2Proof.Machine

/-! ## The direction asked first (R243), whatever the parameters -/

theorem execWith_fails_of_readOperand {k : Kind} (hk : k ∈ [Kind.lda, .ldx, .ldy, .adc, .sbc, .and, .ora, .eor, .cmp,
      .cpx, .cpy, .bit, .inc, .dec]) {c : Config} {op : Operand} {s : State} {f : Fault}
    (hread : readOperand c op s = .fault f) : execWith c (k.instr op) s = .fault f := by
  have asked {α : Type} (rest : Byte → Result α) : andThen (readOperand c op s) rest = .fault f := by
    rw [hread, andThen_fault]
  cases k with
  | lda | ldx | ldy | adc | sbc | and | ora | eor | cmp | cpx | cpy | bit | inc | dec => exact asked _
  | _ => exact absurd hk (by decide)

theorem execWith_fails_of_writeOperand {k : Kind} (hk : k ∈ [Kind.sta, .stx, .sty]) {c : Config} {op : Operand}
    {s : State} {f : Fault} (hwrite : ∀ v, writeOperand c op v s = .fault f) :
    execWith c (k.instr op) s = .fault f := by
  have asked (v : Byte) (rest : State → Exec) : andThen (writeOperand c op v s) rest = .fault f := by
    rw [hwrite, andThen_fault]
  cases k with
  | sta | stx | sty => exact asked _ _
  | _ => exact absurd hk (by decide)

/-- INC and DEC read an immediate operand and then ask to write it. -/
theorem execWith_inc_dec_imm {k : Kind} (hk : k ∈ [Kind.inc, .dec]) {op : Operand} (hop : op.mode = .imm) (c : Config)
    (s : State) : execWith c (k.instr op) s = .fault (.unsupportedAddressingMode .imm .write) := by
  obtain ⟨v, rfl⟩ : ∃ v, op = .imm v := by
    cases op with
    | imm v => exact ⟨v, rfl⟩
    | _ => cases hop
  cases k with
  | inc => exact modifyMemory_imm c (· + 1) v s
  | dec => exact modifyMemory_imm c (· - 1) v s
  | _ => exact absurd hk (by decide)

/-! ## What a step of the spec's parameters can answer -/

/-- Each case of the table entry has its outcome: no entry, an entry without a behaviour, and a behaviour in a mode the
map gives it, which completes (R123 to R126). -/
theorem step_cases (s : State) :
    (∃ t, step s = .next t) ∨ (∃ b, step s = .fault (.invalidOpcode b)) ∨
      ∃ k, step s = .fault (.unsupportedInstruction k) := by
  rcases Nat.eq_zero_or_pos s.rc with hrc | hrc
  · cases he : specTable.lookup s.opcodeByte with
    | none => exact .inr (.inl ⟨_, step_of_lookup_none hrc he⟩)
    | some e =>
      cases hk : e.kind.implemented with
      | false => exact .inr (.inr ⟨_, step_of_lookup_not_implemented hrc he hk⟩)
      | true =>
        have hwf : (e.kind.instr (s.operandAt e)).wf = true := by
          rw [wf_instr, State.operandAt, ofBytes_mode]
          exact (modes_and_opcode_of_lookup he).1
        exact .inl ((everyImplementedInstructionCompletes e.kind (s.operandAt e) hk hwf).2 s hrc
          (State.fetchInstr_of_lookup_some he))
  · exact .inl ⟨_, engineStep_eq_next.mpr (.inl ⟨hrc, rfl⟩)⟩

theorem step_ne_unsupportedAddressingMode (s : State) (m : Mode) (d : Direction) :
    step s ≠ .fault (.unsupportedAddressingMode m d) := by
  obtain ⟨t, h⟩ | ⟨b, h⟩ | ⟨k, h⟩ := step_cases s <;> rw [h] <;> nofun

theorem step_ne_refused (s : State) (w : Refusal) : step s ≠ .refused w := by
  obtain ⟨t, h⟩ | ⟨b, h⟩ | ⟨k, h⟩ := step_cases s <;> rw [h] <;> nofun

/-- Settles O33: the resolver fails in the direction it is asked, a failing step is a fetch-dispatch step, and the map
puts no behaviour in such a mode. -/
theorem unsupportedModesNameTheFirstDirection : Obligations.UnsupportedModesNameTheFirstDirection := by
  intro c op s
  refine ⟨fun k hk hop => ?_, fun k hk hop => ?_, fun k hk hop => execWith_inc_dec_imm hk hop c s, fun f hf => ?_,
    step_ne_unsupportedAddressingMode s⟩
  · have hmodes : ∀ m ∈ [Mode.imp, .acc, .rel, .ind], m ≠ .imm ∧ hasAddress m = false := by decide
    obtain ⟨himm, haddr⟩ := hmodes _ hop
    exact execWith_fails_of_readOperand hk (readOperand_fails himm haddr s)
  · have hmodes : ∀ m ∈ [Mode.imm, .imp, .acc, .rel, .ind], hasAddress m = false := by decide
    exact execWith_fails_of_writeOperand hk fun v => writeOperand_fails (hmodes _ hop) v s
  · exact ⟨(engineStep_eq_fault.mp hf).1, by rw [hf, observe]⟩

/-! ## No refusal (R128, R130) -/

theorem next_ne_refused {α : Type} (v : α) (w : Refusal) : (.next v : Result α) ≠ .refused w := nofun

theorem andThen_ne_refused {α β : Type} {r : Result α} {k : α → Result β} (hr : ∀ w, r ≠ .refused w)
    (hk : ∀ v w, k v ≠ .refused w) (w : Refusal) : andThen r k ≠ .refused w := by
  rw [Ne, andThen_eq_refused]
  rintro (h | ⟨v, _, h⟩)
  · exact hr w h
  · exact hk v w h

/-- The official semantics gives an address to both indirect modes, and only those two can be refused (R71, R72). -/
theorem address_ne_refused {c : Config} (hc : c.indirect = .official) (dir : Direction) (op : Operand) (s : State)
    (w : Refusal) : address c dir op s ≠ .refused w := by
  cases h : hasAddress op.mode with
  | true =>
    obtain ⟨a, ha⟩ := address_total hc h s
    rw [ha]
    nofun
  | false =>
    rw [address_fails h]
    nofun

theorem readOperand_ne_refused {c : Config} (hc : c.indirect = .official) (op : Operand) (s : State) (w : Refusal) :
    readOperand c op s ≠ .refused w := by
  by_cases hi : op.mode = .imm
  · obtain ⟨v, hv⟩ := readOperand_total hc (.inl hi) s
    rw [hv]
    nofun
  · rw [readOperand_eq hi]
    exact andThen_ne_refused (address_ne_refused hc .read op s) (fun _ => next_ne_refused _) w

theorem writeOperand_ne_refused {c : Config} (hc : c.indirect = .official) (op : Operand) (v : Byte) (s : State)
    (w : Refusal) : writeOperand c op v s ≠ .refused w :=
  andThen_ne_refused (address_ne_refused hc .write op s) (fun _ => next_ne_refused _) w

/-- Outside the resolver, only the guard on the two indirect modes refuses. -/
theorem execWith_ne_refused {c : Config} (hc : c.indirect = .official) (i : Instr) (s : State) (w : Refusal) :
    execWith c i s ≠ .refused w := by
  have read (op : Operand) {k : Byte → Exec} (hk : ∀ v w, k v ≠ .refused w) :
      andThen (readOperand c op s) k ≠ .refused w :=
    andThen_ne_refused (readOperand_ne_refused hc op s) hk w
  have write (op : Operand) (v : Byte) (g : State → State) (w : Refusal) :
      andThen (writeOperand c op v s) (fun t => .next (g t)) ≠ .refused w :=
    andThen_ne_refused (writeOperand_ne_refused hc op v s) (fun _ => next_ne_refused _) w
  have guarded (op : Operand) {r : Exec} (hr : r ≠ .refused w) : unlessVariant c op r ≠ .refused w := by
    rwa [unlessVariant_official hc]
  cases i with
  | lda op | ldx op | ldy op | adc op | sbc op | and op | ora op | eor op | cmp op | cpx op | cpy op | bit op =>
    exact read op fun _ => next_ne_refused _
  | sta op | stx op | sty op => exact write op _ _ w
  | inc op | dec op => exact read op fun _ => write op _ _
  | inx op | iny op | dex op | dey op => exact guarded op nofun
  | jmp op | bcc op | bcs op | beq op | bne op | bmi op | bpl op | bvc op | bvs op =>
    exact guarded op (by cases op <;> nofun)
  | _ => nofun

/-- Settles O34: no resolver call and no guard refuses, and the host sees the step's outcome. -/
theorem specParametersRefuseNothing : Obligations.SpecParametersRefuseNothing := by
  refine ⟨fun i s w => ?_, step_ne_refused, fun s => ?_⟩
  · rw [exec_eq_execWith_spec]
    exact execWith_ne_refused spec_official i s w
  · obtain ⟨t, h⟩ | ⟨b, h⟩ | ⟨k, h⟩ := step_cases s
    · exact .inl ⟨t, by rw [hostStep, h, observe]⟩
    · exact .inr (.inl ⟨b, hostStep_of_fault h⟩)
    · exact .inr (.inr ⟨k, hostStep_of_fault h⟩)

/-! ## A failure repeats (R240, R244) -/

/-- Settles O41: the state after a failing step is the state before it, so the same step follows. -/
theorem failureRepeatsUntilTheBusChanges : Obligations.FailureRepeatsUntilTheBusChanges := by
  refine ⟨fun s f h => ?_, rfl, fun _ => rfl, fun _ => rfl, fun _ _ => rfl⟩
  have hhost : hostStep s = (.failed f, s) := hostStep_of_fault h
  exact ⟨hhost, by rw [hhost]; exact hhost⟩

end Sys2Proof.Machine
end

section
/-! PROOF. Construction and the end of a run (spec/70_reset_and_hazards.md R270, R271, R281): the block starts from the
vector with everything else fixed, and a jump to itself leads back to the same state after its three cycles. -/

namespace Sys2Proof.Machine

/-! ## Construction (R270, R271) -/

/-- Settles O42: PC is the word at the vector, low byte first, and a cleared P has every flag clear. -/
theorem constructionSetsEveryRegister : Obligations.ConstructionSetsEveryRegister := by
  rintro c bus _ rfl
  exact ⟨wordOf_toNat _ _, rfl, rfl, rfl, rfl, rfl, fun _ => BitVec.getLsbD_zero, rfl, rfl⟩

/-- Settles O43: the two are written field by field alike, and nothing listed reads as 0 at the vector. -/
theorem resetIsConstructionOnAnEmptyBus : Obligations.ResetIsConstructionOnAnEmptyBus := ⟨rfl, rfl, rfl⟩

/-! ## The self-jump (R281) -/

theorem failing_iff {r : Exec} : failing r = true ↔ ∀ t, r ≠ .next t := by
  cases r <;> simp [failing]

theorem State.selfJump_iff {s : State} :
    s.selfJump = true ↔ s.read s.pc = 0x4C ∧ s.read16 (s.pc + 1) = s.pc := by
  simp [State.selfJump, State.opcodeByte]

theorem State.endOfRun_iff {s : State} :
    s.endOfRun = true ↔
      (s.rc = 0 ∧ s.read s.pc = 0x4C ∧ s.read16 (s.pc + 1) = s.pc) ∨ ∀ t, step s ≠ .next t := by
  simp [State.endOfRun, State.selfJump_iff, failing_iff]

theorem lookup_jmp_abs {s : State} (hop : s.read s.pc = 0x4C) :
    specTable.lookup s.opcodeByte = some ⟨.jmp, .abs, 3, 3⟩ := by
  rw [State.opcodeByte, hop]
  rfl

theorem cyclesOf_jmp_abs {s : State} (hop : s.read s.pc = 0x4C) : cyclesOf specTable s.opcodeByte = 3 := by
  rw [cyclesOf, lookup_jmp_abs hop]

/-- The fetch-dispatch step of JMP absolute: PC at the target, two idle steps to come. -/
theorem step_jmp_abs {s : State} (hrc : s.rc = 0) (hop : s.read s.pc = 0x4C) :
    step s = .next ((s.setPc (s.read16 (s.pc + 1))).setRc 2) := by
  have hfetch : s.fetchInstr specTable = .jmp (.abs (s.read16 (s.pc + 1))) := by
    rw [State.fetchInstr_of_lookup_some (lookup_jmp_abs hop), ← State.wordOf_read_operand]
    rfl
  rw [step_eq_stepWith_spec]
  refine engineStep_eq_next.mpr (.inr ⟨hrc, s.setPc (s.read16 (s.pc + 1)), ?_, ?_⟩)
  · rw [spec_table, hfetch]
    exact jmpWith_abs Config.spec _ s
  · rw [spec_table, State.charge, cyclesOf_jmp_abs hop]

/-- One iteration: PC is set to itself, and RC has run down from the 3 cycles of the jump to 0. -/
theorem run_three_selfJump {s : State} (hrc : s.rc = 0) (hjump : s.selfJump = true) : run 3 s = .next s := by
  obtain ⟨hop, htarget⟩ := State.selfJump_iff.mp hjump
  have hcycles := cyclesOf_jmp_abs hop
  rw [run_instr hrc (step_jmp_abs hrc hop) (by decide) hcycles.ge, hcycles, htarget]
  exact congrArg Host.Outcome.next (State.ext rfl rfl rfl rfl rfl rfl hrc.symm rfl)

/-- Settles O51, by induction on the iterations. -/
theorem selfJumpRepeatsEveryThreeSteps : Obligations.SelfJumpRepeatsEveryThreeSteps := by
  refine ⟨fun _ => State.endOfRun_iff, fun s n hrc hjump => ?_⟩
  induction n with
  | zero => rfl
  | succ n ih =>
    rw [Nat.mul_succ, run_add ih]
    exact run_three_selfJump hrc hjump

end Sys2Proof.Machine
end
